-- ==== Sys2Proof/Word.lean ====
section
/-!
DEFINITION. The words of the block: the host command word, trigger codes, bytes, binary32 patterns and times.
-/

namespace Sys2Proof

/-- One byte of a wire frame, and one colour channel (R7). -/
abbrev Byte := BitVec 8

/-- The host command word `CW` (R55). -/
abbrev CmdWord := BitVec 64

/-- A button trigger code `TRIG` (R67). -/
abbrev TrigCode := BitVec 8

/-- A binary32 bit pattern (R64). -/
abbrev F32 := BitVec 32

/-- The 5-bit brightness field (R7). -/
abbrev Field5 := BitVec 5

/-- A time or a duration in nanoseconds (R11, R31: a model may use an unbounded natural number). -/
abbrev Time := Nat

end Sys2Proof
end

