-- ==== Sys2Proof/Syntax.lean ====
section
/-!
DEFINITION. The instructions: one constructor per row of `spec/opcode_table.json`.
-/

namespace Sys2Proof

/-- The rows of the opcode table. The first five are host commands (R55 to R57, R71), the next four the triggers of
the button state machine (R67, R102), the last three the wire frames of the LED encoder (R60 to R62). -/
inductive Instr where
  /-- SET_LED (R88): three colour channels and a binary32 brightness. -/
  | setLed (red green blue : Byte) (brightness : F32)
  /-- SET_FAN (R97): `on = true` is fan on. -/
  | setFan (on : Bool)
  /-- The pseudo-instruction `fan_on`, which is `set_fan 1` (R71). -/
  | fanOn
  /-- The pseudo-instruction `fan_off`, which is `set_fan 0` (R71). -/
  | fanOff
  /-- The pseudo-instruction `led_off`, which is `set_led 0, 0, 0, f32:0x00000000` (R71). -/
  | ledOff
  /-- OBS (R102): a raw level observation at time `t`; `level = false` is pressed (active-low). -/
  | obs (level : Bool) (t : Time)
  /-- SRC_END (R102): the raw-level source ended at time `t`. -/
  | srcEnd (t : Time)
  /-- TIMER_FAIL (R102): the hold-deadline timer could not be polled, at time `t`. -/
  | timerFail (t : Time)
  /-- DEADLINE (R104): the expiry of the armed hold deadline. Internal; never queued. -/
  | deadline
  /-- START_FRAME (R83) of `n` pulses. -/
  | startFrame (n : Nat)
  /-- LED_FRAME (R84): the brightness field and the three channels, in wire order. -/
  | ledFrame (field : Field5) (blue green red : Byte)
  /-- END_FRAME (R85): `m` pulses with the data line at `level`. -/
  | endFrame (level : Bool) (m : Nat)
  deriving DecidableEq, Repr

/-- The expansion of a pseudo-instruction into the core command it spells (R71); every other instruction is its own. -/
def Instr.expand : Instr → Instr
  | .fanOn => .setFan true
  | .fanOff => .setFan false
  | .ledOff => .setLed 0 0 0 0
  | .setLed r g b br => .setLed r g b br
  | .setFan on => .setFan on
  | .obs v t => .obs v t
  | .srcEnd t => .srcEnd t
  | .timerFail t => .timerFail t
  | .deadline => .deadline
  | .startFrame n => .startFrame n
  | .ledFrame f b g r => .ledFrame f b g r
  | .endFrame l m => .endFrame l m

/-- The core host commands, the `Cmd` of R22 and R58. -/
def Instr.isCommand : Instr → Bool
  | .setLed _ _ _ _ | .setFan _ => true
  | .fanOn | .fanOff | .ledOff => false
  | .obs _ _ | .srcEnd _ | .timerFail _ | .deadline => false
  | .startFrame _ | .ledFrame _ _ _ _ | .endFrame _ _ => false

end Sys2Proof
end

