-- ==== Sys2Proof/WellFormed.lean ====
section
/-!
DEFINITION. Which instructions have an encoding: the ranges the encodings of R60 to R67 can hold.
-/

namespace Sys2Proof

/-- A timestamp fits its 64 bits (R67). -/
def timestampFits (t : Time) : Bool := decide (t < 2 ^ 64)

/-- Well-formed instructions: timestamps of 64 bits (R67), start frames of 32 to 36 pulses and end frames of 32 to 255
(R6). Command operands and frame bytes are bit vectors, so every value of them is well-formed. -/
def Instr.wf : Instr → Bool
  | .setLed _ _ _ _ => true
  | .setFan _ => true
  | .fanOn => true
  | .fanOff => true
  | .ledOff => true
  | .obs _ t => timestampFits t
  | .srcEnd t => timestampFits t
  | .timerFail t => timestampFits t
  | .deadline => true
  | .startFrame n => decide (32 ≤ n) && decide (n ≤ 36)
  | .ledFrame _ _ _ _ => true
  | .endFrame _ m => decide (32 ≤ m) && decide (m ≤ 255)

end Sys2Proof
end

