-- ==== Sys2Proof/Decode.lean ====
section
/-!
DEFINITION. The decoders of the block's three input and wire encodings (R55 to R62, R67), total on any bits and
rejecting by name; then the encoder, from the same tables; then the reading of a table word the host asks for.
-/

namespace Sys2Proof

/-- Why bits are no instruction. -/
inductive DecodeError where
  /-- A command word that is ILLEGAL (R58, R59). -/
  | illegalCommand
  /-- A trigger code with non-zero reserved bits (R67). -/
  | malformedTrigger
  /-- Bit cells that are none of the three frames (R60 to R62). -/
  | malformedFrame
  deriving DecidableEq, Repr

/-- R58: the decode function of the host command word, total on all 2^64 words. -/
def decodeCommand (cw : CmdWord) : Except DecodeError Instr :=
  if cw.extractLsb' 56 8 = 0x10#8 then
    .ok (.setLed (cw.extractLsb' 48 8) (cw.extractLsb' 40 8) (cw.extractLsb' 32 8) (cw.extractLsb' 0 32))
  else if cw &&& 0xFFFFFFFFFFFFFFFE#64 = 0x2000000000000000#64 then
    .ok (.setFan (cw.getLsbD 0))
  else .error .illegalCommand

/-- R67: a trigger code with its timestamp. Bits 7:6 name the trigger, bits 5:1 are zero, and bit 0 is the level of an
OBS and zero in every other code. DEADLINE has no timestamp of its own. -/
def decodeTrigger (c : TrigCode) (t : Time) : Except DecodeError Instr :=
  if c.extractLsb' 1 5 ≠ 0#5 then .error .malformedTrigger
  else if c.extractLsb' 6 2 = 0b00#2 then .ok (.obs (c.getLsbD 0) t)
  else if c.getLsbD 0 then .error .malformedTrigger
  else if c.extractLsb' 6 2 = 0b01#2 then .ok (.srcEnd t)
  else if c.extractLsb' 6 2 = 0b10#2 then .ok (.timerFail t)
  else .ok .deadline

/-- The number a row of bit cells spells, first cell most significant (R40). -/
def bitsToNat (cells : List Bool) : Nat :=
  cells.foldl (fun acc b => 2 * acc + b.toNat) 0

/-- A 32-bit data frame word, by its fields (R61). -/
def ledFrameOfWord (w : BitVec 32) : Instr :=
  .ledFrame (w.extractLsb' 24 5) (w.extractLsb' 16 8) (w.extractLsb' 8 8) (w.extractLsb' 0 8)

/-- The frame a row of bit cells is, first cell first (R60 to R62). Where two readings fit, the start frame is taken
before the data frame and the data frame before the end frame: R85 says an end frame at level 0 is indistinguishable
from a start frame, and R61 that every word with prefix 111 is a data frame (log 8). -/
def decodeFrame (cells : List Bool) : Except DecodeError Instr :=
  if cells.all (! ·) && decide (32 ≤ cells.length) && decide (cells.length ≤ 36) then
    .ok (.startFrame cells.length)
  else if cells.length = 32 ∧ (cells.take 3).all id then
    .ok (ledFrameOfWord (BitVec.ofNat 32 (bitsToNat cells)))
  else if cells.all (cells.headD false == ·) && decide (32 ≤ cells.length) && decide (cells.length ≤ 255) then
    .ok (.endFrame (cells.headD false) cells.length)
  else .error .malformedFrame

/-- The bits of an instruction in the form its carrier holds them (R54): a word on the host command port, a code and a
timestamp in the trigger queue, or a row of bit cells on the wire. -/
inductive Packet where
  | command (cw : CmdWord)
  | trigger (c : TrigCode) (t : Time)
  | frame (cells : List Bool)
  deriving DecidableEq, Repr

/-- The decoder of any packet. -/
def decode : Packet → Except DecodeError Instr
  | .command cw => decodeCommand cw
  | .trigger c t => decodeTrigger c t
  | .frame cells => decodeFrame cells

/-- R56: the SET_LED word. -/
def ledCommandWord (red green blue : Byte) (brightness : F32) : CmdWord :=
  0x10#8 ++ red ++ green ++ blue ++ brightness

/-- R57: the SET_FAN word. -/
def fanCommandWord (on : Bool) : CmdWord :=
  0x200000000000000#60 ++ (0#3 ++ BitVec.ofBool on)

/-- R67: the OBS code with the level in bit 0. -/
def obsCode (level : Bool) : TrigCode := 0#7 ++ BitVec.ofBool level

/-- R67: the SRC_END code. -/
def srcEndCode : TrigCode := 0x40#8

/-- R67: the TIMER_FAIL code. -/
def timerFailCode : TrigCode := 0x80#8

/-- R67: the DEADLINE code, which is never appended to `inq`. -/
def deadlineCode : TrigCode := 0xC0#8

/-- The bits of a word, most significant first (R40, R61). -/
def bitsMsbFirst {n : Nat} (w : BitVec n) : List Bool :=
  (List.range n).map fun k => w.getLsbD (n - 1 - k)

/-- R77: the control byte, `111` then the brightness field. -/
def controlByte (field : Field5) : Byte := 0b111#3 ++ field

/-- R61: the data frame word `FRAME32`. -/
def frame32 (field : Field5) (blue green red : Byte) : BitVec 32 :=
  controlByte field ++ blue ++ green ++ red

/-- The encoder: the packet of an instruction, from the same tables. A pseudo-instruction has the word of its
expansion (R71). -/
def encode : Instr → Packet
  | .setLed r g b br => .command (ledCommandWord r g b br)
  | .setFan on => .command (fanCommandWord on)
  | .fanOn => .command 0x2000000000000001#64
  | .fanOff => .command 0x2000000000000000#64
  | .ledOff => .command 0x1000000000000000#64
  | .obs v t => .trigger (obsCode v) t
  | .srcEnd t => .trigger srcEndCode t
  | .timerFail t => .trigger timerFailCode t
  | .deadline => .trigger deadlineCode 0
  | .startFrame n => .frame (List.replicate n false)
  | .ledFrame f b g r => .frame (bitsMsbFirst (frame32 f b g r))
  | .endFrame l m => .frame (List.replicate m l)

/-- What the bits of an instruction say by themselves. A pseudo-instruction reads as its expansion (R71). An end frame
at level 0 of at most 36 pulses reads as a start frame (R85), and an end frame of 32 pulses at level 1 as the data frame
0xFFFFFFFF (R61): on the wire only the position in the SET_LED tells them apart (log 8). -/
def Instr.reading : Instr → Instr
  | .endFrame false m => if m ≤ 36 then .startFrame m else .endFrame false m
  | .endFrame true m => if m = 32 then .ledFrame 31 0xFF 0xFF 0xFF else .endFrame true m
  | .fanOn => .setFan true
  | .fanOff => .setFan false
  | .ledOff => .setLed 0 0 0 0
  | .setLed r g b br => .setLed r g b br
  | .setFan on => .setFan on
  | .obs v t => .obs v t
  | .srcEnd t => .srcEnd t
  | .timerFail t => .timerFail t
  | .deadline => .deadline
  | .startFrame n => .startFrame n
  | .ledFrame f b g r => .ledFrame f b g r

/-- The host command word of an instruction; what is no command has none, and answers the ILLEGAL word 0. -/
def commandWord (i : Instr) : CmdWord :=
  match encode i with
  | .command cw => cw
  | .trigger _ _ => 0
  | .frame _ => 0

/-- The code of a trigger that may stand in `inq` (R67, R119 (b)): well-formed, and not DEADLINE. -/
def queueable (c : TrigCode) : Bool :=
  match decodeTrigger c 0 with
  | .ok .deadline => false
  | .ok _ => true
  | .error _ => false

/-- A terminal trigger, SRC_END or TIMER_FAIL (R119 (c)). -/
def terminalCode (c : TrigCode) : Bool := decide (c = srcEndCode) || decide (c = timerFailCode)

/-- The bit cells of an `n`-cell frame whose word is `w`, first cell the most significant (R40). -/
def frameCells (n w : Nat) : List Bool := (List.range n).map fun k => w.testBit (n - 1 - k)

/-- The packet of a table row's bits: a 64-bit row is a host command word, an 8-bit row a trigger code, any other width a
row of bit cells. DESIGN CHOICE (log 32): R67 gives a trigger as a pair of code and timestamp and packs them in no word;
here the timestamp's bits stand above the code's, and are 0 in an 8-bit row. -/
def tablePacket (nbits w : Nat) : Packet :=
  if nbits = 64 then .command (BitVec.ofNat 64 w)
  else if nbits = 8 ∨ nbits = 72 then .trigger (BitVec.ofNat 8 w) (w / 2 ^ 8 % 2 ^ 64)
  else .frame (frameCells nbits w)

/-- The instruction the decoder reads from an instruction of the opcode table whose bits are `w`. -/
def decodeTableWord (nbits w : Nat) : Option Instr :=
  match decode (tablePacket nbits w) with
  | .ok i => some i
  | .error _ => none

end Sys2Proof
end

