-- ==== Sys2Proof/Config.lean ====
section
/-!
DEFINITION. The configuration record `cfg` of R6, its defaults and its legal values, and the one free value the spec
leaves open (`wrap_out_of_range`).
-/

namespace Sys2Proof

/-- How SET_LED treats a brightness outside [0, 1] (R73, R74; decision D8). -/
inductive BrightnessMode where
  | clamp
  | wrap
  deriving DecidableEq, Repr

/-- The button level source (R116, R117; decision D37). -/
inductive SourceMode where
  | edge
  | poll
  deriving DecidableEq, Repr

/-- The configuration record of R6. A capacity of `none` is an unbounded queue. The field `wrap_out_of_range` is
`Config.wrapOutOfRange` below, because it is a function. -/
structure Cfg where
  startPulses : Nat
  endPulses : Nat
  endLevel : Bool
  dwellNs : Time
  brightnessMode : BrightnessMode
  holdTimeNs : Time
  sourceMode : SourceMode
  pollIntervalNs : Time
  inDepth : Option Nat
  evDepth : Option Nat
  deriving DecidableEq, Repr

/-- The defaults of R6. The two queue capacities are OPEN in R6; unbounded here is a DESIGN CHOICE (log 2). -/
def Cfg.default : Cfg where
  startPulses := 32
  endPulses := 32
  endLevel := true
  dwellNs := 250
  brightnessMode := .clamp
  holdTimeNs := 2000000000
  sourceMode := .edge
  pollIntervalNs := 50000000
  inDepth := none
  evDepth := none

/-- A legal queue capacity: at least 1, or unbounded (R6; decisions D25, D26). -/
def legalDepth : Option Nat → Bool
  | none => true
  | some n => decide (1 ≤ n)

/-- The legal values of R6. The model gives an illegal record no meaning (R8). -/
def Cfg.legal (c : Cfg) : Bool :=
  decide (32 ≤ c.startPulses) && decide (c.startPulses ≤ 36) &&
  decide (32 ≤ c.endPulses) && decide (c.endPulses ≤ 255) &&
  decide (250 ≤ c.dwellNs) && decide (1 ≤ c.holdTimeNs) && decide (1 ≤ c.pollIntervalNs) &&
  legalDepth c.inDepth && legalDepth c.evDepth

/-- FREE VALUE: `cfg.wrap_out_of_range` (R6, R74; decision D12: "the result is OPEN"). It has no body, so nothing can
be proved of its values (log 17; safe). -/
opaque Config.wrapOutOfRange : F32 → Field5

end Sys2Proof
end

