-- ==== Sys2Proof/Machine/State.lean ====
section
/-!
DEFINITION. The state of the block, and its instance under a configuration: the tuple of R17, the line configurations of
R38, the timers of R137, the histories a claim observes (R16), and the moves of the agents still to come; the reasons a
step can be refused; the state right after reset.
-/

namespace Sys2Proof.Machine

/-- The outcome of construction (R24). -/
inductive Init where
  | ready
  | exportFailed
  deriving DecidableEq, Repr

/-- The level of an output line (R19): `unknown` is the spec's `⊥`, of which nothing is known (log 14). -/
inductive Level where
  | low
  | high
  | unknown
  deriving DecidableEq, Repr

/-- The output lines, the only lines a `LineWrite` can name (R38, R39). -/
inductive OutLine where
  | fan
  | data
  | clk
  deriving DecidableEq, Repr

/-- The four board lines (R38). -/
inductive Line where
  | out (l : OutLine)
  | button
  deriving DecidableEq, Repr

/-- The environment's answer to a `LineWrite` or an `Export` (R13, R145). -/
inductive Answer where
  | ok
  | fail
  deriving DecidableEq, Repr

/-- The direction of an exported line (R38). -/
inductive Dir where
  | input
  | output
  deriving DecidableEq, Repr

/-- The edge sensing of an exported line (R38). -/
inductive EdgeSense where
  | none
  | both
  deriving DecidableEq, Repr

/-- How a line was exported (R145). -/
structure LinePort where
  dir : Dir
  edges : EdgeSense
  deriving DecidableEq, Repr

/-- A line primitive (R79): `w l v` is `LineWrite(l, v)`, `d` is `Dwell(cfg.DWELL_NS)`. -/
inductive Prim where
  | w (l : OutLine) (v : Bool)
  | d
  deriving DecidableEq, Repr

/-- An entry of the write trace (R16 (a)). -/
inductive TraceItem where
  | write (l : OutLine) (v : Bool) (a : Answer)
  | dwell (ns : Time)
  deriving DecidableEq, Repr

/-- The result codes (R68). -/
inductive ResCode where
  | ok
  | lineWriteFailure
  | illegalCommand
  | lineExportFailure
  deriving DecidableEq, Repr

/-- The result record (R23). -/
structure Res where
  code : ResCode
  line : BitVec 5
  deriving DecidableEq, Repr

/-- The phases of the button state machine (R26). -/
inductive Phase where
  | idle
  | pressed
  | held
  | ended
  deriving DecidableEq, Repr

/-- Why the state machine ended (R27). -/
inductive EndKind where
  | sourceEnd
  | timerFailure
  deriving DecidableEq, Repr

/-- The event output codes (R66): three button events and two end markers. -/
inductive Event where
  | press
  | release
  | hold
  | seqEnd
  | timerFailure
  deriving DecidableEq, Repr

/-- The environment's answers to the four exports of a construction, in its order (R145). -/
structure ExportAnswers where
  fan : Answer
  data : Answer
  clk : Answer
  button : Answer
  deriving DecidableEq, Repr

/-- One move of one agent (R15), with the environment's draw it needs (log 5). -/
inductive Move where
  /-- Host: the issue step of R125. The host has none while `busy = true`, or while a word of its own waits (R142). -/
  | issue (cw : CmdWord)
  /-- Host: present a word at any time; the port holds it while a command runs (R142, D7; log 9). -/
  | present (cw : CmdWord)
  /-- Port: accept the word it holds, once it is free (D7, R142). -/
  | accept
  /-- Host: pop the head of `evq` (R143). -/
  | popEvent
  /-- Executor: one step of R89. `a` answers its `LineWrite`; a dwell does not read it. -/
  | execute (a : Answer)
  /-- Button state machine: one step of R103. -/
  | fsm
  /-- Environment: `now <- t` (R31, R70). -/
  | clock (t : Time)
  /-- Environment: move the button line to level `v` (R20). -/
  | button (v : Bool)
  /-- EDGE source: deliver one edge of the button line (R116). -/
  | edge
  /-- POLL source: take one sample (R117). -/
  | sample
  /-- Level source: append a trigger (R67, R70, R119). -/
  | append (c : TrigCode) (t : Time)
  /-- Host: construct the block anew, under the configuration of the instance (R133, R144; log 21). -/
  | construct (answers : ExportAnswers)
  deriving DecidableEq, Repr

/-- The output lines' levels (R19) and the configuration of all four lines (R38). A line whose port is `none` is not
exported, and the block does not drive it. -/
structure Lines where
  fan : Level
  data : Level
  clk : Level
  fanPort : Option LinePort
  dataPort : Option LinePort
  clkPort : Option LinePort
  buttonPort : Option LinePort
  deriving DecidableEq, Repr

/-- The host command port and the command executor: R22, R23, R25, the word the port holds (R142), the dwell timer
(R137: the time the executor's last primitive ended, or the command began), and the histories of R16 (a) and (b). -/
structure CmdPath where
  held : Option CmdWord
  busy : Bool
  cur : Option Instr
  res : Res
  encOps : List Prim
  dwellFrom : Time
  trace : List TraceItem
  results : List Res
  deriving DecidableEq, Repr

/-- The button state machine (R26, R27). -/
structure Fsm where
  phase : Phase
  deadline : Option Time
  endKind : Option EndKind
  deriving DecidableEq, Repr

/-- The button line and its level source: `btn_lvl` (R20), `prev` (R28), the time of the last sample (R117, R137), and
the edges that have happened and are not delivered yet (R116). -/
structure Source where
  btnLvl : Bool
  prev : Option Bool
  lastSample : Option Time
  pendingEdges : Nat
  deriving DecidableEq, Repr

/-- The state (R17). It holds no configuration (R6, R32). `emitted` is the history of R16 (c). `script` holds the agents'
moves still to come, the one the next step takes first (log 5). -/
structure Block where
  init : Init
  lines : Lines
  cmd : CmdPath
  fsm : Fsm
  src : Source
  inq : List (TrigCode × Time)
  evq : List Event
  emitted : List Event
  now : Time
  script : List Move
  deriving DecidableEq, Repr

/-- An instance: the state, with the configuration it is instantiated with (R6). The host's interface asks for a step and
an `exec` with no configuration argument, so a state stands beside its parameter here. No step writes it (log 1). -/
structure State extends Block where
  cfg : Cfg
  deriving DecidableEq, Repr

/-- The instance of a state under a configuration. -/
def Block.under (b : Block) (c : Cfg) : State := { b with cfg := c }

/-- The reasons the machine stops with a fault: there are none. The block reports its errors in `res` or in `evq` and
goes on (R130), so this inductive is closed with no constructor (log 23; safe). -/
inductive Fault where
  deriving DecidableEq, Repr

/-- The runs and forms the model gives no meaning. None is raised by the meaning of an instruction. -/
inductive Refusal where
  /-- An instruction whose arm in `exec` has no meaning yet. Raised by no arm. Safe. -/
  | notModelled (mnemonic : String)
  /-- A configuration record outside its legal values (R8). Raised by the step and by a construction. Safe. -/
  | illegalConfig
  /-- The environment appends a code R67 does not admit, or one stands in `inq` (R67, R119 (b)). Safe. -/
  | malformedTrigger
  /-- The environment appends a trigger whose timestamp is not `now` (R119 (a)). Safe. -/
  | staleTimestamp
  /-- The environment appends a trigger after a terminal one (R119 (c)). Safe. -/
  | appendAfterTerminal
  /-- The environment appends to a full `inq` (R29). Safe. -/
  | inqFull
  /-- The environment moves the clock backwards (R31). Safe. -/
  | clockBackwards
  /-- A move of the level source this configuration does not have (R116, R117). Safe. -/
  | wrongSource
  deriving DecidableEq, Repr

/-- What a step of this machine answers. -/
abbrev Result := Host.Outcome State Fault Refusal

/-- R36: the state after a successful construction with the default configuration. DESIGN CHOICE: the open queue
capacities (log 2), `now` (log 3), `btn_lvl` (log 4); the model's own fields stand at nothing yet (log 29). -/
def State.reset : State where
  cfg := Cfg.default
  init := .ready
  lines :=
    { fan := .high
      data := .low
      clk := .low
      fanPort := some ⟨.output, .none⟩
      dataPort := some ⟨.output, .none⟩
      clkPort := some ⟨.output, .none⟩
      buttonPort := some ⟨.input, .both⟩ }
  cmd :=
    { held := none
      busy := false
      cur := none
      res := ⟨.ok, 0⟩
      encOps := []
      dwellFrom := 0
      trace := []
      results := [] }
  fsm := { phase := .idle, deadline := none, endKind := none }
  src := { btnLvl := true, prev := none, lastSample := none, pendingEdges := 0 }
  inq := []
  evq := []
  emitted := []
  now := 0
  script := []

end Sys2Proof.Machine
end

