-- ==== Sys2Proof/Machine/Flags.lean ====
section
/-!
DEFINITION. The block has no flags, condition codes or predicates (R34). The status the host sees is the result record
and the event queue (R33): this file gives the bits of their codes (R66, R68) and the numbers of the lines (R7).
-/

namespace Sys2Proof.Machine

/-- The board numbers of the output lines (R7, R38). -/
def OutLine.number : OutLine → BitVec 5
  | .fan => 18
  | .data => 15
  | .clk => 14

/-- The board numbers of the four lines (R7, R38). -/
def Line.number : Line → BitVec 5
  | .out l => l.number
  | .button => 17

/-- The 2-bit result codes (R68). -/
def ResCode.bits : ResCode → BitVec 2
  | .ok => 0b00
  | .lineWriteFailure => 0b01
  | .illegalCommand => 0b10
  | .lineExportFailure => 0b11

/-- The 3-bit event output codes (R66). The codes 011, 100 and 101 belong to no event. -/
def Event.bits : Event → BitVec 3
  | .press => 0b000
  | .release => 0b001
  | .hold => 0b010
  | .seqEnd => 0b110
  | .timerFailure => 0b111

end Sys2Proof.Machine
end

