-- ==== Sys2Proof/Machine/Operands.lean ====
section
/-!
DEFINITION. The brightness operand: binary32 patterns (R64), the floating-point primitives of R12, and the quantizers
of R73 and R74.
-/

namespace Sys2Proof.Machine

/-- The sign bit (R64). -/
def f32Sign (b : F32) : Bool := b.getLsbD 31

/-- The biased exponent, bits 30:23 (R64). -/
def f32Exp (b : F32) : Nat := (b.extractLsb' 23 8).toNat

/-- The fraction, bits 22:0 (R64). -/
def f32Frac (b : F32) : Nat := (b.extractLsb' 0 23).toNat

/-- `isNaN` of R12. -/
def isNaN (b : F32) : Bool := decide (f32Exp b = 255) && decide (f32Frac b ≠ 0)

/-- An infinity of either sign (R64). -/
def isInf (b : F32) : Bool := decide (f32Exp b = 255) && decide (f32Frac b = 0)

/-- The significand of a finite pattern: the fraction, with its hidden bit when the number is normal (R64). -/
def f32Mant (b : F32) : Nat := if f32Exp b = 0 then f32Frac b else 2 ^ 23 + f32Frac b

/-- The exponent of a finite pattern, biased so that its magnitude is `f32Mant b * 2 ^ (f32Scale b) / 2 ^ 150`; a
subnormal has the exponent of the least normal (R64). -/
def f32Scale (b : F32) : Nat := max (f32Exp b) 1

/-- The pattern with a sign and a magnitude field of 31 bits. -/
def f32Pack (sign : Bool) (magnitude : Nat) : F32 := BitVec.ofBool sign ++ BitVec.ofNat 31 magnitude

/-- The magnitude field of an infinity (R64). -/
def infMagnitude : Nat := 0x7F800000

/-- The pattern a NaN result takes. No rule reads it: every use tests for NaN first (log 18). -/
def quietNaN : F32 := 0x7FC00000

/-- `m / 2 ^ k` rounded to the nearest integer, ties to even (R12). -/
def roundShiftEven (m k : Nat) : Nat :=
  let q := m / 2 ^ k
  let r := m % 2 ^ k
  if 2 ^ k < 2 * r ∨ (2 * r = 2 ^ k ∧ q % 2 = 1) then q + 1 else q

/-- The number of bits of `m`. -/
def bitLength (m : Nat) : Nat := if m = 0 then 0 else Nat.log2 m + 1

/-- The magnitude field of the binary32 nearest to `m * 2 ^ x / 2 ^ 300`, ties to even, overflowing to infinity (R12).
`s` is the exponent field the result's unit in the last place belongs to, 0 for subnormals and the least normals; a
rounding that carries out of the significand carries into the exponent field. A zero significand is zero, whatever its
exponent. -/
def roundMagnitude (m x : Nat) : Nat :=
  if m = 0 then 0 else
  let s := bitLength m + x - 175
  let r := if x ≤ s + 151 then roundShiftEven m (s + 151 - x) else m * 2 ^ (x - (s + 151))
  min (s * 2 ^ 23 + r) infMagnitude

/-- `f32_mul` of R12: the binary32 product rounded to nearest, ties to even (D9). -/
def f32Mul (a b : F32) : F32 :=
  let sign := f32Sign a ^^ f32Sign b
  if isNaN a || isNaN b then quietNaN
  else if isInf a || isInf b then
    if f32Mant a = 0 && f32Exp a = 0 || f32Mant b = 0 && f32Exp b = 0 then quietNaN else f32Pack sign infMagnitude
  else f32Pack sign (roundMagnitude (f32Mant a * f32Mant b) (f32Scale a + f32Scale b))

/-- The magnitude field: everything but the sign. On non-NaN patterns it is ordered as the magnitudes are (R64). -/
def f32Magnitude (b : F32) : Nat := (b.extractLsb' 0 31).toNat

/-- The place of a non-NaN pattern in the ordinary order, with −0.0 equal to +0.0 (R12). -/
def f32Key (b : F32) : Int := if f32Sign b then -(f32Magnitude b : Int) else f32Magnitude b

/-- The ordinary order on non-NaN values (R12). -/
def f32Le (a b : F32) : Bool := decide (f32Key a ≤ f32Key b)

/-- `max` of R12. -/
def f32Max (a b : F32) : F32 := if f32Le a b then b else a

/-- `min` of R12. -/
def f32Min (a b : F32) : F32 := if f32Le a b then a else b

/-- The integer nearest `m * 2 ^ x / 2 ^ 150`, halves upwards. -/
def roundHalfUp (m x : Nat) : Nat :=
  if 150 ≤ x then m * 2 ^ (x - 150) else (m + 2 ^ (149 - x)) / 2 ^ (150 - x)

/-- `round_half_away` of R12 on finite patterns: the nearest integer, halves away from zero (D10). An infinity or a
NaN has no nearest integer; the callers exclude them (log 19). -/
def roundHalfAway (x : F32) : Int :=
  let k := roundHalfUp (f32Mant x) (f32Scale x)
  if f32Sign x then -(k : Int) else k

/-- The binary32 31.0. -/
def f32ThirtyOne : F32 := 0x41F80000

/-- The binary32 1.0. -/
def f32One : F32 := 0x3F800000

/-- The binary32 +0.0. -/
def f32Zero : F32 := 0x00000000

/-- R73: the quantizer in CLAMP mode. -/
def quantizeClamp (b : F32) : Field5 :=
  if isNaN b then 0
  else BitVec.ofInt 5 (roundHalfAway (f32Mul f32ThirtyOne (f32Min (f32Max b f32Zero) f32One)))

/-- R74: the quantizer in WRAP mode. Outside the window the source settles, the field is the free value
`Config.wrapOutOfRange` (D12). -/
def quantizeWrap (b : F32) : Field5 :=
  if isNaN b then Config.wrapOutOfRange b
  else
    let p := f32Mul f32ThirtyOne b
    if isInf p then Config.wrapOutOfRange b
    else
      let k := roundHalfAway p
      if k < 0 ∨ 255 < k then Config.wrapOutOfRange b else BitVec.ofInt 5 (k % 32)

/-- The field SET_LED computes (R88): the quantizer `cfg.BRIGHTNESS_MODE` selects. -/
def brightnessField (c : Cfg) (b : F32) : Field5 :=
  match c.brightnessMode with
  | .clamp => quantizeClamp b
  | .wrap => quantizeWrap b

end Sys2Proof.Machine
end

