-- ==== Sys2Proof/Machine/Ops.lean ====
section
/-!
DEFINITION. The operations the meanings share: writing a line, the result record and the reporting of an error, starting
a command, emitting an event, the guards of the button state machine, and appending to `inq`.
-/

namespace Sys2Proof.Machine

/-! ### Lines (R13, R19) -/

/-- The level a successful write of `v` leaves (R13). -/
def Level.ofBit : Bool → Level
  | false => .low
  | true => .high

/-- The level of an output line (R19, R89: `lvl`). -/
def Lines.level (L : Lines) : OutLine → Level
  | .fan => L.fan
  | .data => L.data
  | .clk => L.clk

/-- `lvl(l) <- v` (R89). -/
def Lines.setLevel (L : Lines) (l : OutLine) (v : Level) : Lines :=
  match l with
  | .fan => { L with fan := v }
  | .data => { L with data := v }
  | .clk => { L with clk := v }

/-- The level after a `LineWrite` of `v` answered `a` (R13, R44). -/
def Level.after (v : Bool) : Answer → Level
  | .ok => Level.ofBit v
  | .fail => .unknown

/-- `LineWrite(l, v)` with the environment's answer `a` (R13): the level, and the entry of the write trace. The dwell
timer counts from here (R93). -/
def State.lineWrite (s : State) (l : OutLine) (v : Bool) (a : Answer) : State :=
  { s with
    lines := s.lines.setLevel l (Level.after v a)
    cmd := { s.cmd with trace := s.cmd.trace ++ [.write l v a], dwellFrom := s.now } }

/-- A `Dwell(cfg.DWELL_NS)` that has passed: its marker in the trace (R16, R93). -/
def State.dwellDone (s : State) : State :=
  { s with cmd := { s.cmd with trace := s.cmd.trace ++ [.dwell s.cfg.dwellNs], dwellFrom := s.now } }

/-! ### Results and errors (R14, R23, R130) -/

/-- `Result(code, line)` (R14): the record is written, and the command, if one runs, ends (R23, R130). -/
def State.result (s : State) (code : ResCode) (line : BitVec 5) : State :=
  { s with
    cmd :=
      { s.cmd with
        busy := false
        cur := none
        res := ⟨code, line⟩
        encOps := []
        results := s.cmd.results ++ [⟨code, line⟩] } }

/-- Raising an error kind of a command (R121, R130): the block's whole exception entry. Nothing is saved beyond the
record, no mode changes and no handler is entered. No operation returns from it (R132): the next command is accepted as
after any result. -/
def State.raise (s : State) (code : ResCode) (line : BitVec 5) : State := s.result code line

/-- Completion of a command (R92). -/
def State.complete (s : State) : State := s.result .ok 0

/-! ### Starting commands (R88, R97, R122, R142) -/

/-- A command begins: `busy <- true; cur <- i; enc_ops <- ops` (R88, R97). -/
def State.begin (s : State) (i : Instr) (ops : List Prim) : State :=
  { s with cmd := { s.cmd with busy := true, cur := some i, encOps := ops, dwellFrom := s.now } }

/-- More primitives for the command in progress. -/
def State.appendOps (s : State) (ops : List Prim) : State :=
  { s with cmd := { s.cmd with encOps := s.cmd.encOps ++ ops } }

/-- The port holds a word until `busy` falls (D7, R142). It holds one: with a word held already, that word stays and
`cw` is not taken, because the host has no further step until its first word is accepted (log 9). -/
def State.hold (s : State) (cw : CmdWord) : State :=
  { s with cmd := { s.cmd with held := some (s.cmd.held.getD cw) } }

/-- The port lets go of the word it held. -/
def State.unhold (s : State) : State := { s with cmd := { s.cmd with held := none } }

/-- A host command `i` whose frame is `ops`: held while another runs (R142), LINE_EXPORT_FAILURE after a failed
construction (R122), and otherwise begun (R88, R97). DESIGN CHOICE (log 9), in states where a word is held already: while
a command runs `i` is not taken, and on a free port `i` begins and the held word stays held. No move of an agent runs a
host command in such a state. -/
def State.startCommand (s : State) (i : Instr) (ops : List Prim) : Result :=
  if s.cmd.busy then .next (s.hold (commandWord i))
  else if s.init = .exportFailed then .next (s.raise .lineExportFailure 0)
  else .next (s.begin i ops)

/-- A wire frame `i` whose primitives are `ops`: added to the command in progress, or begun as a command of its own
when none runs (log 7). After a failed construction no line I/O happens (R24). -/
def State.emitFrame (s : State) (i : Instr) (ops : List Prim) : Result :=
  if s.cmd.busy then .next (s.appendOps ops)
  else if s.init = .exportFailed then .next (s.raise .lineExportFailure 0)
  else .next (s.begin i ops)

/-! ### The button state machine (R103, R111, R112) -/

/-- `Emit(e)` (R14): append a code to the event output queue. -/
def State.emit (s : State) (e : Event) : State :=
  { s with evq := s.evq ++ [e], emitted := s.emitted ++ [e] }

/-- New phase and deadline of a live state machine. -/
def State.setPhase (s : State) (p : Phase) (d : Option Time) : State :=
  { s with fsm := { s.fsm with phase := p, deadline := d } }

/-- The terminal steps (R111, R112): the code is emitted, the deadline disarmed, and the reason recorded. -/
def State.endSequence (s : State) (e : Event) (k : EndKind) : State :=
  { s.emit e with fsm := { phase := .ended, deadline := none, endKind := some k } }

/-- The output is full: `length(evq) = cfg.EV_DEPTH` (R103). -/
def State.evqFull (s : State) : Bool := decide (s.cfg.evDepth = some s.evq.length)

/-- The state machine may step (R103): it has not ended, construction did not fail, and the output has room. -/
def State.fsmLive (s : State) : Bool :=
  decide (s.fsm.phase ≠ .ended) && decide (s.init = .ready) && !s.evqFull

/-- An armed deadline at or before time `t`, in phase Pressed (R103). -/
def State.deadlineBy (s : State) (t : Time) : Bool :=
  decide (s.fsm.phase = .pressed) && (match s.fsm.deadline with
    | some d => decide (d ≤ t)
    | none => false)

/-- The merge policy of R103: the timer is ready no later than the next trigger, or, with nothing pending, by `now`. -/
def State.deadlineReady (s : State) : Bool :=
  match s.inq with
  | (_, t) :: _ => s.deadlineBy t
  | [] => s.deadlineBy s.now

/-- The state machine processes a trigger stamped `t`, and not the deadline before it (R103). -/
def State.takesTrigger (s : State) (t : Time) : Bool := s.fsmLive && !s.deadlineBy t

/-- The state machine takes the DEADLINE step (R103). -/
def State.takesDeadline (s : State) : Bool := s.fsmLive && s.deadlineReady

/-! ### The trigger queue (R29, R119) -/

/-- A terminal trigger has been appended: it still stands in `inq`, or the state machine has ended on it (R119 (c)). -/
def State.terminalSeen (s : State) : Bool :=
  decide (s.fsm.phase = .ended) || s.inq.any (fun e => terminalCode e.1)

/-- `inq` is at its capacity (R29). -/
def State.inqFull (s : State) : Bool :=
  match s.cfg.inDepth with
  | some n => decide (n ≤ s.inq.length)
  | none => false

/-- The append itself (R53: last in line). -/
def State.enqueue (s : State) (c : TrigCode) (t : Time) : State := { s with inq := s.inq ++ [(c, t)] }

/-- The environment appends a trigger. A run that breaks an obligation of R119 or overfills the queue is refused. -/
def State.appendTrigger (s : State) (c : TrigCode) (t : Time) : Result :=
  if !queueable c then .refused .malformedTrigger
  else if t ≠ s.now then .refused .staleTimestamp
  else if s.terminalSeen then .refused .appendAfterTerminal
  else if s.inqFull then .refused .inqFull
  else .next (s.enqueue c t)

end Sys2Proof.Machine
end

