-- ==== Sys2Proof/Machine/Construct.lean ====
section
/-!
DEFINITION. Reset: the construction of the block (R144 to R146).
-/

namespace Sys2Proof.Machine

/-- No line is exported, and the block drives none (R145, before the first export). -/
def Lines.unexported : Lines where
  fan := .unknown
  data := .unknown
  clk := .unknown
  fanPort := none
  dataPort := none
  clkPort := none
  buttonPort := none

/-- The edge sensing the button line is exported with (R145). -/
def buttonEdges (c : Cfg) : EdgeSense :=
  match c.sourceMode with
  | .edge => .both
  | .poll => .none

/-- `Export(l, dir, level, edges)` answered `ok` (R145): the line's direction and edge sensing, and an output's
default level (R38). -/
def Lines.exportLine (L : Lines) (c : Cfg) : Line → Lines
  | .out .fan => { L with fan := .high, fanPort := some ⟨.output, .none⟩ }
  | .out .data => { L with data := .low, dataPort := some ⟨.output, .none⟩ }
  | .out .clk => { L with clk := .low, clkPort := some ⟨.output, .none⟩ }
  | .button => { L with buttonPort := some ⟨.input, buttonEdges c⟩ }

/-- The levels after a failed export (R146): those of the lines exported before are unspecified, and the others were
never driven. -/
def Lines.unspecified (L : Lines) : Lines := { L with fan := .unknown, data := .unknown, clk := .unknown }

/-- The export loop of R145: the first `fail` stops it (R146). -/
def exportAll (c : Cfg) : List (Line × Answer) → Lines → Lines × Init
  | [], L => (L, .ready)
  | (_, .fail) :: _, L => (L.unspecified, .exportFailed)
  | (l, .ok) :: rest, L => exportAll c rest (L.exportLine c l)

/-- The four exports in their order, each with its answer (R145). -/
def ExportAnswers.inOrder (a : ExportAnswers) : List (Line × Answer) :=
  [(.out .fan, a.fan), (.out .data, a.data), (.out .clk, a.clk), (.button, a.button)]

/-- `Construct(cfg)` (R144 to R146): the lines and `init` come from the exports, every other element has the value of
R36. What the block does not own goes on as it was: the clock, the button's level and the moves still to come. DESIGN
CHOICE (log 21): it acts in any state, also while a command runs, whose remaining primitives are dropped with no result.
An illegal record is refused (R8). -/
def State.construct (s : State) (c : Cfg) (a : ExportAnswers) : Result :=
  if c.legal then
    .next
      { s with
        cfg := c
        init := (exportAll c a.inOrder Lines.unexported).2
        lines := (exportAll c a.inOrder Lines.unexported).1
        cmd := { State.reset.cmd with dwellFrom := s.now }
        fsm := State.reset.fsm
        src := { s.src with prev := none, lastSample := none, pendingEdges := 0 }
        inq := []
        evq := []
        emitted := [] }
  else .refused .illegalConfig

end Sys2Proof.Machine
end

