-- ==== Sys2Proof/Machine/Button.lean ====
section
/-!
DEFINITION. The button state machine's triggers (R104 to R112). Each acts when R103 selects it; otherwise the state
machine takes no step (log 10).
-/

namespace Sys2Proof.Machine

/-- The transition of an observation (R105 to R110). -/
def State.observe (s : State) (level : Bool) (t : Time) : State :=
  match s.fsm.phase, level with
  | .idle, false => (s.emit .press).setPhase .pressed (some (t + s.cfg.holdTimeNs))
  | .idle, true => s
  | .pressed, false => s
  | .pressed, true => (s.emit .release).setPhase .idle none
  | .held, false => s
  | .held, true => (s.emit .release).setPhase .idle s.fsm.deadline
  | .ended, _ => s

/-- OBS (R105 to R110). -/
def execObs (level : Bool) (t : Time) (s : State) : Result :=
  if s.takesTrigger t then .next (s.observe level t) else .next s

/-- SRC_END (R111). -/
def execSrcEnd (t : Time) (s : State) : Result :=
  if s.takesTrigger t then .next (s.endSequence .seqEnd .sourceEnd) else .next s

/-- TIMER_FAIL (R112, R124). -/
def execTimerFail (t : Time) (s : State) : Result :=
  if s.takesTrigger t then .next (s.endSequence .timerFailure .timerFailure) else .next s

/-- DEADLINE (R104). -/
def execDeadline (s : State) : Result :=
  if s.takesDeadline then .next ((s.emit .hold).setPhase .held none) else .next s

end Sys2Proof.Machine
end

