-- ==== Sys2Proof/Machine/Fan.lean ====
section
/-!
DEFINITION. The fan controller: SET_FAN and its two pseudo-instructions (R71, R97).
-/

namespace Sys2Proof.Machine

/-- The acceptance of SET_FAN (R97): one write of the fan line. -/
def State.acceptFan (s : State) (on : Bool) : Result := s.startCommand (.setFan on) [.w .fan on]

/-- SET_FAN (R97). -/
def execSetFan (on : Bool) (s : State) : Result := s.acceptFan on

/-- `fan_on` (R71): SET_FAN(1). -/
def execFanOn (s : State) : Result := s.acceptFan true

/-- `fan_off` (R71): SET_FAN(0). -/
def execFanOff (s : State) : Result := s.acceptFan false

end Sys2Proof.Machine
end

