-- ==== Sys2Proof/Machine/Led.lean ====
section
/-!
DEFINITION. The LED encoder: the frames as lists of line primitives (R79 to R86), and the meanings of SET_LED, led_off
and the three wire frames.
-/

namespace Sys2Proof.Machine

/-- PULSE (R80). -/
def pulse : List Prim := [.w .clk true, .d, .w .clk false, .d]

/-- BIT(v) (R81): the data line, then one pulse; no dwell between them (D17). -/
def bitOps (v : Bool) : List Prim := .w .data v :: pulse

/-- The concatenation of `k` copies of a list (R10: `repeat k L`). -/
def repeatOps : Nat → List Prim → List Prim
  | 0, _ => []
  | k + 1, ops => ops ++ repeatOps k ops

/-- The bits one after the other, each with its pulse. -/
def bitsOps : List Bool → List Prim
  | [] => []
  | v :: vs => bitOps v ++ bitsOps vs

/-- BYTE(x) (R82): most significant bit first. -/
def byteOps (x : Byte) : List Prim := bitsOps (bitsMsbFirst x)

/-- START_FRAME (R83). -/
def startOps (n : Nat) : List Prim := .w .data false :: repeatOps n pulse

/-- DATA_FRAME (R84): control byte, blue, green, red. -/
def dataOps (cb blue green red : Byte) : List Prim :=
  byteOps cb ++ byteOps blue ++ byteOps green ++ byteOps red

/-- END_FRAME (R85). -/
def endOps (level : Bool) (m : Nat) : List Prim := .w .data level :: repeatOps m pulse

/-- FRAME (R86): the whole list of one SET_LED with brightness field `field`. -/
def frameOps (c : Cfg) (field : Field5) (blue green red : Byte) : List Prim :=
  startOps c.startPulses ++ dataOps (controlByte field) blue green red ++ endOps c.endLevel c.endPulses

/-- The acceptance of SET_LED (R88). -/
def State.acceptLed (s : State) (red green blue : Byte) (brightness : F32) : Result :=
  s.startCommand (.setLed red green blue brightness)
    (frameOps s.cfg (brightnessField s.cfg brightness) blue green red)

/-- SET_LED (R88). -/
def execSetLed (red green blue : Byte) (brightness : F32) (s : State) : Result :=
  s.acceptLed red green blue brightness

/-- `led_off` (R71): SET_LED(0, 0, 0, +0.0). -/
def execLedOff (s : State) : Result := s.acceptLed 0 0 0 0

/-- START_FRAME (R83). DESIGN CHOICE (log 7): the pulse count is the instruction's own operand, also where it differs
from `cfg.START_PULSES`. -/
def execStartFrame (n : Nat) (s : State) : Result := s.emitFrame (.startFrame n) (startOps n)

/-- LED_FRAME (R84), with the control byte of R77. -/
def execLedFrame (field : Field5) (blue green red : Byte) (s : State) : Result :=
  s.emitFrame (.ledFrame field blue green red) (dataOps (controlByte field) blue green red)

/-- END_FRAME (R85). DESIGN CHOICE (log 7): the level and the pulse count are the instruction's own operands, also
where they differ from `cfg.END_LEVEL` and `cfg.END_PULSES`. -/
def execEndFrame (level : Bool) (m : Nat) (s : State) : Result := s.emitFrame (.endFrame level m) (endOps level m)

end Sys2Proof.Machine
end

