-- ==== Sys2Proof/Machine/Dispatch.lean ====
section
/-!
DEFINITION. The dispatch of every instruction to its meaning.
-/

namespace Sys2Proof.Machine

def exec (i : Instr) (s : State) : Host.Outcome State Fault Refusal :=
  match i with
  | .setLed red green blue brightness => Sys2Proof.Machine.execSetLed red green blue brightness s
  | .setFan on => Sys2Proof.Machine.execSetFan on s
  | .fanOn => Sys2Proof.Machine.execFanOn s
  | .fanOff => Sys2Proof.Machine.execFanOff s
  | .ledOff => Sys2Proof.Machine.execLedOff s
  | .obs level t => Sys2Proof.Machine.execObs level t s
  | .srcEnd t => Sys2Proof.Machine.execSrcEnd t s
  | .timerFail t => Sys2Proof.Machine.execTimerFail t s
  | .deadline => Sys2Proof.Machine.execDeadline s
  | .startFrame n => Sys2Proof.Machine.execStartFrame n s
  | .ledFrame field blue green red => Sys2Proof.Machine.execLedFrame field blue green red s
  | .endFrame level m => Sys2Proof.Machine.execEndFrame level m s

end Sys2Proof.Machine
end

