-- ==== Sys2Proof/Machine/Executor.lean ====
section
/-!
DEFINITION. The command executor (R89 to R93): one line primitive per step.
-/

namespace Sys2Proof.Machine

/-- After a primitive performed well: the rest remains, and an empty rest completes the command (R89, R92). -/
def State.finishPrim (s : State) (rest : List Prim) : State :=
  let s' : State := { s with cmd := { s.cmd with encOps := rest } }
  if rest = [] then s'.complete else s'

/-- `cfg.DWELL_NS` has passed since the primitive before (R93). -/
def State.dwellOver (s : State) : Bool := decide (s.cmd.dwellFrom + s.cfg.dwellNs ≤ s.now)

/-- ExecStep (R89), with the environment's answer `a` to its write. A dwell that has not lasted `cfg.DWELL_NS` yet is
not over, and the executor waits (R93; log 11). A failed write ends the command (R90). -/
def State.execStep (s : State) (a : Answer) : State :=
  if s.cmd.busy then
    match s.cmd.encOps with
    | [] => s
    | .d :: rest => if s.dwellOver then s.dwellDone.finishPrim rest else s
    | .w l v :: rest =>
      match a with
      | .fail => (s.lineWrite l v .fail).raise .lineWriteFailure l.number
      | .ok => (s.lineWrite l v .ok).finishPrim rest
  else s

end Sys2Proof.Machine
end

