-- ==== Sys2Proof/Machine/Source.lean ====
section
/-!
DEFINITION. The button line and its level sources (R20, R116, R117), and the clock (R31).
-/

namespace Sys2Proof.Machine

/-- `LineRead(17)` (R13, R45): the level, with no side effect. -/
def State.readButton (s : State) : Bool := s.src.btnLvl

/-- The button line is exported with edge sensing on both edges (R38, R127 (1)). -/
def State.edgeSensing (s : State) : Bool := decide (s.lines.buttonPort = some ⟨.input, .both⟩)

/-- The environment moves the button line (R20). A level change is an edge, and an edge-sensing line has it to deliver
(R116). -/
def State.moveButton (s : State) (v : Bool) : State :=
  let edges := if s.edgeSensing && decide (v ≠ s.src.btnLvl) then s.src.pendingEdges + 1 else s.src.pendingEdges
  { s with src := { s.src with btnLvl := v, pendingEdges := edges } }

/-- One edge leaves the pending ones. -/
def State.takeEdge (s : State) : State :=
  { s with src := { s.src with pendingEdges := s.src.pendingEdges - 1 } }

/-- EDGE source (R116): one pending edge is delivered; the level is the one read at delivery. With no edge pending
nothing is delivered. -/
def State.deliverEdge (s : State) : Result :=
  if s.cfg.sourceMode = .poll then .refused .wrongSource
  else if s.src.pendingEdges = 0 then .next s
  else s.takeEdge.appendTrigger (obsCode s.readButton) s.now

/-- `cfg.POLL_INTERVAL_NS` has passed since the sample before, or there was none (R117). -/
def State.sampleDue (s : State) : Bool :=
  match s.src.lastSample with
  | none => true
  | some t => decide (t + s.cfg.pollIntervalNs ≤ s.now)

/-- The sample is taken: `prev <- s` at `now` (R117). -/
def State.takeSample (s : State) : State :=
  { s with src := { s.src with prev := some s.readButton, lastSample := some s.now } }

/-- PollSample (R117). The first sample is the baseline; a later one that differs appends an OBS. A line that is not
exported is not read (R24), and a sample that is not due yet is not taken (log 12). -/
def State.pollSample (s : State) : Result :=
  if s.cfg.sourceMode = .edge then .refused .wrongSource
  else if s.init = .exportFailed ∨ s.sampleDue = false then .next s
  else if s.src.prev = none ∨ s.src.prev = some s.readButton then .next s.takeSample
  else s.takeSample.appendTrigger (obsCode s.readButton) s.now

/-- The environment advances the clock, never backwards (R31). -/
def State.setClock (s : State) (t : Time) : Result :=
  if s.now ≤ t then .next { s with now := t } else .refused .clockBackwards

/-- The host pops the head of `evq` (R30, R143). -/
def State.popEvent (s : State) : State := { s with evq := s.evq.tail }

end Sys2Proof.Machine
end

