-- ==== Sys2Proof/Machine/Moves.lean ====
section
/-!
DEFINITION. What each move of each agent does: the port's acceptance of a word (R125), the state machine's selection
(R103), and the moves of the host and the environment.
-/

namespace Sys2Proof.Machine

/-- Accept(CW) (R125): the check for a failed construction comes before decoding (R129 (c)). -/
def State.acceptWord (s : State) (cw : CmdWord) : Result :=
  if s.init = .exportFailed then .next (s.raise .lineExportFailure 0)
  else
    match decodeCommand cw with
    | .error _ => .next (s.raise .illegalCommand 0)
    | .ok i => exec i s

/-- The host's issue step (R125): one word, accepted when `busy = false`. While `busy = true` the host has no issue step
(R142), and none while a word it presented before still waits, because it must wait for that one (R143; log 9). -/
def State.issueWord (s : State) (cw : CmdWord) : Result :=
  if s.cmd.busy ∨ s.cmd.held ≠ none then .next s else s.acceptWord cw

/-- The host presents a word without waiting: held while a command runs (R142, D7), and otherwise its issue step. -/
def State.presentWord (s : State) (cw : CmdWord) : Result :=
  if s.cmd.busy then .next (s.hold cw) else s.issueWord cw

/-- The port accepts the word it holds, once `busy` has fallen (R142). -/
def State.acceptHeld (s : State) : Result :=
  match s.cmd.held with
  | none => .next s
  | some cw => if s.cmd.busy then .next s else s.unhold.acceptWord cw

/-- The head of `inq` is removed and processed (R103). A code that may not stand there is refused (R67). -/
def State.processHead (s : State) : Result :=
  match s.inq with
  | [] => .next s
  | (c, t) :: rest =>
    if queueable c then
      match decodeTrigger c t with
      | .error _ => .refused .malformedTrigger
      | .ok i => exec i { s with inq := rest }
    else .refused .malformedTrigger

/-- FsmStep (R103). -/
def State.fsmStep (s : State) : Result :=
  if s.fsmLive then
    if s.deadlineReady then exec .deadline s else s.processHead
  else .next s

/-- What a move does. -/
def State.takeMove (s : State) : Move → Result
  | .issue cw => s.issueWord cw
  | .present cw => s.presentWord cw
  | .accept => s.acceptHeld
  | .popEvent => .next s.popEvent
  | .execute a => .next (s.execStep a)
  | .fsm => s.fsmStep
  | .clock t => s.setClock t
  | .button v => .next (s.moveButton v)
  | .edge => s.deliverEdge
  | .sample => s.pollSample
  | .append c t => s.appendTrigger c t
  | .construct a => s.construct s.cfg a

/-- The next move of the script, with the rest still to come. With no move left every agent is idle (R141). -/
def State.takeTurn (s : State) : Result :=
  match s.script with
  | [] => .next s
  | m :: rest => State.takeMove { s with script := rest } m

/-- An outcome with its next state changed by `f`. -/
def mapNext {α β : Type} (f : α → β) : Host.Outcome α Fault Refusal → Host.Outcome β Fault Refusal
  | .next s => .next (f s)
  | .fault r => .fault r
  | .refused r => .refused r

/-- R6, R32: the step relation on the states of R17, with the configuration as its parameter. The meanings see the state
under that configuration, and the step answers a state and no configuration. An illegal record has no meaning (R8). -/
def Block.stepWith (c : Cfg) (b : Block) : Host.Outcome Block Fault Refusal :=
  if c.legal then mapNext State.toBlock (b.under c).takeTurn else .refused .illegalConfig

/-! ### Placing an instruction where its agent takes it next -/

/-- A free port of a block that is ready, so that a presented word is accepted at once (R125). -/
def State.portReady (s : State) : State :=
  { s with cmd := { s.cmd with held := none, busy := false, cur := none, encOps := [] } }

/-- A host command word, presented in the next step. -/
def State.placeCommand (s : State) (cw : CmdWord) : State :=
  { s.portReady with script := .issue cw :: s.script }

/-- A state machine that may step (R103): where it has ended it is idle, where the output is full it is empty. -/
def State.fsmReady (s : State) : State :=
  { s with
    init := .ready
    fsm := if s.fsm.phase = .ended then { phase := .idle, deadline := none, endKind := none } else s.fsm
    evq := if s.evqFull then [] else s.evq }

/-- A trigger at the head of `inq`, taken in the next step: an armed deadline stands after it. -/
def State.placeTrigger (s : State) (c : TrigCode) (t : Time) : State :=
  { s.fsmReady with
    fsm := { s.fsmReady.fsm with deadline := s.fsmReady.fsm.deadline.map (max (t + 1)) }
    inq := (c, t) :: s.inq
    script := .fsm :: s.script }

/-- An armed deadline that is ready, taken in the next step (R103, R104). -/
def State.placeDeadline (s : State) : State :=
  { s.fsmReady with
    fsm := { phase := .pressed, deadline := some 0, endKind := none }
    script := .fsm :: s.script }

/-- A wire frame loaded into the executor of a block that is ready, its first primitive performed in the next step
(log 6). -/
def State.placeFrame (s : State) (i : Instr) : State :=
  match exec i { s.portReady with init := .ready } with
  | .next t => { t with script := .execute .ok :: s.script }
  | .fault _ => s
  | .refused _ => s

/-- The bits of an instruction placed where its agent takes it next. -/
def State.place (s : State) : Packet → State
  | .command cw => s.placeCommand cw
  | .trigger c t => if c = deadlineCode then s.placeDeadline else s.placeTrigger c t
  | .frame cells =>
    match decodeFrame cells with
    | .ok i => s.placeFrame i
    | .error _ => s

end Sys2Proof.Machine
end

