-- ==== Sys2Proof/Machine/Step.lean ====
section
/-!
DEFINITION. One step of the machine, and the placing of an instruction where the next step takes it.
-/

namespace Sys2Proof.Machine

/-- One step of an instance: the step relation at its configuration, which stays as it is (R6). -/
def step (s : State) : Host.Outcome State Fault Refusal := mapNext (Block.under · s.cfg) (s.toBlock.stepWith s.cfg)

/-- The state in which the next step takes the instruction of a table row whose bits are `w` (log 6). -/
def State.withFetchWord (s : State) (nbits w : Nat) : State := s.place (tablePacket nbits w)

end Sys2Proof.Machine
end

