-- ==== Sys2Proof/Machine/Assembler.lean ====
section
/-!
DEFINITION. The assembler syntax (R70) and the pseudo-instructions (R71): one line of characters to the command or the
moves it stands for. Where R70 leaves the lexical details open, log 24 names the choice.
-/

namespace Sys2Proof.Machine

/-- What a line of assembler stands for: a host command, or a trigger line's moves of the environment. -/
inductive AsmLine where
  | command (i : Instr)
  | moves (ms : List Move)
  deriving DecidableEq, Repr

/-- Lower case of an ASCII letter: mnemonics are case-insensitive (R70). -/
def lowerChar (c : Char) : Char :=
  if 65 ≤ c.toNat ∧ c.toNat ≤ 90 then Char.ofNat (c.toNat + 32) else c

/-- A line without its comment, which starts at `;` (R70). -/
def dropComment : List Char → List Char
  | [] => []
  | c :: cs => if c = ';' then [] else c :: dropComment cs

/-- The words of a line: white space separates them, and a comma is a word of its own. `cur` is the word being read. -/
def splitWords : List Char → List Char → List (List Char)
  | cur, [] => if cur = [] then [] else [cur]
  | cur, c :: cs =>
    if c = ' ' ∨ c = '\t' then (if cur = [] then [] else [cur]) ++ splitWords [] cs
    else if c = ',' then (if cur = [] then [] else [cur]) ++ [[',']] ++ splitWords [] cs
    else splitWords (cur ++ [c]) cs

/-- The value of a decimal or lower-case hexadecimal digit. -/
def digitValue (c : Char) : Option Nat :=
  if 48 ≤ c.toNat ∧ c.toNat ≤ 57 then some (c.toNat - 48)
  else if 97 ≤ c.toNat ∧ c.toNat ≤ 102 then some (c.toNat - 87)
  else none

/-- The number a row of digits spells in a base, from the value `acc` on. -/
def digitsFrom (base : Nat) : Nat → List Char → Option Nat
  | acc, [] => some acc
  | acc, c :: cs =>
    match digitValue c with
    | some v => if v < base then digitsFrom base (base * acc + v) cs else none
    | none => none

/-- A non-empty row of digits. -/
def parseDigits (base : Nat) (cs : List Char) : Option Nat :=
  if cs = [] then none else digitsFrom base 0 cs

/-- A decimal or 0x-hexadecimal number (R70). -/
def parseNumber : List Char → Option Nat
  | '0' :: 'x' :: cs => parseDigits 16 cs
  | cs => parseDigits 10 cs

/-- A colour operand, 0 to 255 (R70). -/
def parseByte (cs : List Char) : Option Byte :=
  match parseNumber cs with
  | some n => if n < 256 then some (BitVec.ofNat 8 n) else none
  | none => none

/-- The magnitude field of the binary32 nearest to `n / d`, ties to even: the quotient to 200 binary places, with one
more bit that says whether anything is left over, is rounded once. -/
def ratioMagnitude (n d : Nat) : Nat :=
  let q := n * 2 ^ 200 / d
  let sticky := if n * 2 ^ 200 % d = 0 then 0 else 1
  roundMagnitude (2 * q + sticky) 99

/-- The digits before a point and those after it. -/
def splitPoint : List Char → List Char × List Char
  | [] => ([], [])
  | c :: cs => if c = '.' then ([], cs) else (c :: (splitPoint cs).1, (splitPoint cs).2)

/-- An unsigned decimal literal, rounded to a binary32 magnitude (R70). -/
def parseDecimal (cs : List Char) : Option Nat :=
  let (whole, frac) := splitPoint cs
  match parseDigits 10 (whole ++ frac) with
  | some n => some (ratioMagnitude n (10 ^ frac.length))
  | none => none

/-- The brightness operand (R70): `f32:0xHHHHHHHH`, or a decimal literal with an optional minus sign. -/
def parseBrightness : List Char → Option F32
  | 'f' :: '3' :: '2' :: ':' :: '0' :: 'x' :: cs =>
    if cs.length = 8 then (parseDigits 16 cs).map (BitVec.ofNat 32) else none
  | '-' :: cs => (parseDecimal cs).map (f32Pack true)
  | cs => (parseDecimal cs).map (f32Pack false)

/-- The fan operand (R70): 0, 1, off or on. -/
def parseOn : List Char → Option Bool
  | ['0'] => some false
  | ['1'] => some true
  | ['o', 'f', 'f'] => some false
  | ['o', 'n'] => some true
  | _ => none

/-- The observed level of a trigger line (R70). -/
def parseLevel : List Char → Option Bool
  | ['0'] => some false
  | ['1'] => some true
  | _ => none

/-- `set_led <red>, <green>, <blue>, <brightness>` (R70). -/
def parseLed (r g b br : List Char) : Option AsmLine :=
  match parseByte r, parseByte g, parseByte b, parseBrightness br with
  | some r, some g, some b, some br => some (.command (.setLed r g b br))
  | _, _, _, _ => none

/-- The environment waits until `t` and appends a trigger stamped `t` (R70, R119 (a)). -/
def appendAt (t : Time) (c : TrigCode) : AsmLine := .moves [.clock t, .append c t]

/-- A trigger line `@<t> …` (R70). DESIGN CHOICE (log 24): R70 gives no number form for `<t>`; it is decimal here, and in
the `clock` line too. -/
def parseTrigger (t : List Char) (rest : List (List Char)) : Option AsmLine :=
  match parseDigits 10 t, rest with
  | some t, [['o', 'b', 's'], v] => (parseLevel v).map fun v => appendAt t (obsCode v)
  | some t, [['e', 'n', 'd']] => some (appendAt t srcEndCode)
  | some t, [['t', 'i', 'm', 'e', 'r', '_', 'f', 'a', 'i', 'l']] => some (appendAt t timerFailCode)
  | _, _ => none

/-- The line of words (R70, R71). -/
def parseWords : List (List Char) → Option AsmLine
  | [['s', 'e', 't', '_', 'l', 'e', 'd'], r, [','], g, [','], b, [','], br] => parseLed r g b br
  | [['s', 'e', 't', '_', 'f', 'a', 'n'], on] => (parseOn on).map fun on => .command (.setFan on)
  | [['f', 'a', 'n', '_', 'o', 'n']] => some (.command .fanOn)
  | [['f', 'a', 'n', '_', 'o', 'f', 'f']] => some (.command .fanOff)
  | [['l', 'e', 'd', '_', 'o', 'f', 'f']] => some (.command .ledOff)
  | [['c', 'l', 'o', 'c', 'k'], t] => (parseDigits 10 t).map fun t => .moves [.clock t]
  | ('@' :: t) :: rest => parseTrigger t rest
  | _ => none

/-- One line of assembler (R70). -/
def assembleLine (line : List Char) : Option AsmLine :=
  parseWords (splitWords [] ((dropComment line).map lowerChar))

/-- The moves of a line: a command is presented as its word (R55), a trigger line is its own. -/
def AsmLine.toMoves : AsmLine → List Move
  | .command i => [.issue (commandWord i)]
  | .moves ms => ms

end Sys2Proof.Machine
end

