-- ==== Sys2Proof/Safety.lean ====
section
/-!
DEFINITION. The terms the claims use: what a safe run is, what the wire carries, the grammar of the events, the counts
of a frame, and the invariants of the command path, the button path and the queues.
-/

namespace Sys2Proof.Machine

/-! ### Runs -/

/-- `n` steps from `s`, stopping at the first that is no next state. -/
def run : Nat → State → Result
  | 0, s => .next s
  | n + 1, s =>
    match step s with
    | .next t => run n t
    | .fault r => .fault r
    | .refused r => .refused r

/-- A safe run: the environment and the host keep their obligations for `n` steps, so none is refused. -/
def SafeRun (n : Nat) (s : State) : Prop := ∃ t, run n s = .next t

/-- A new construction (R133), the only move that leaves a terminal condition. -/
def Move.isConstruct : Move → Bool
  | .construct _ => true
  | .issue _ | .present _ | .accept | .popEvent | .execute _ | .fsm | .clock _ | .button _ | .edge | .sample | .append _ _ => false

/-- The next move of `s`, if there is one, constructs no new block. -/
def State.keepsBlock (s : State) : Prop := ∀ m rest, s.script = m :: rest → m.isConstruct = false

/-- None of the next `n` moves constructs a new block. -/
def State.keepsBlockFor (s : State) (n : Nat) : Prop := ∀ m ∈ s.script.take n, m.isConstruct = false

/-- A state without what its result records say (R34: no command reads them). -/
def State.eraseResults (s : State) : State := { s with cmd := { s.cmd with res := ⟨.ok, 0⟩, results := [] } }

/-! ### Frames and the wire (R79 to R87) -/

/-- The trace entry of a primitive performed well (R16 (a)). -/
def Prim.traced (dwellNs : Time) : Prim → TraceItem
  | .w l v => .write l v .ok
  | .d => .dwell dwellNs

/-- A primitive that writes a line. -/
def Prim.isWrite : Prim → Bool
  | .w _ _ => true
  | .d => false

/-- A primitive that writes the given line. -/
def Prim.writesLine (l : OutLine) : Prim → Bool
  | .w k _ => decide (k = l)
  | .d => false

/-- A rising clock edge: the first write of a PULSE (R80). -/
def Prim.isClockRise (p : Prim) : Bool := decide (p = .w .clk true)

/-- The writes of a list of primitives, in order. -/
def writesOf (ops : List Prim) : List Prim := ops.filter Prim.isWrite

/-- What the bus carries: the level of the data line at each rising clock edge, from the data level `d` on (R63). -/
def wireCells : Bool → List Prim → List Bool
  | _, [] => []
  | d, .d :: rest => wireCells d rest
  | _, .w .data v :: rest => wireCells v rest
  | d, .w .clk true :: rest => d :: wireCells d rest
  | d, .w .clk false :: rest => wireCells d rest
  | d, .w .fan _ :: rest => wireCells d rest

/-- The line primitives of a command (R86, R97). -/
def commandOps (c : Cfg) : Instr → List Prim
  | .setLed r g b br => frameOps c (brightnessField c br) b g r
  | .setFan on => [.w .fan on]
  | .fanOn | .fanOff | .ledOff => []
  | .obs _ _ | .srcEnd _ | .timerFail _ | .deadline => []
  | .startFrame _ | .ledFrame _ _ _ _ | .endFrame _ _ => []

/-- The moves that perform a list of primitives from time `t` on, every write answered `ok` and every dwell given just
its `DWELL_NS`. -/
def playMoves (dwellNs : Time) : Time → List Prim → List Move
  | _, [] => []
  | t, .w _ _ :: rest => .execute .ok :: playMoves dwellNs t rest
  | t, .d :: rest => .clock (t + dwellNs) :: .execute .ok :: playMoves dwellNs (t + dwellNs) rest

/-- The dwells of a list of primitives. -/
def dwellsOf (ops : List Prim) : Nat := (ops.filter (! ·.isWrite)).length

/-- A dwell marker of the trace. -/
def TraceItem.isDwell : TraceItem → Bool
  | .dwell _ => true
  | .write _ _ _ => false

/-- The dwells of a trace. -/
def tracedDwells (trace : List TraceItem) : Nat := (trace.filter TraceItem.isDwell).length

/-- The default level of an output line (R38). -/
def OutLine.defaultLevel : OutLine → Level
  | .fan => .high
  | .data => .low
  | .clk => .low

/-- The level a trace leaves on a line that starts at `v`: that of its last write (R19, R91). -/
def levelAfter (l : OutLine) : Level → List TraceItem → Level
  | v, [] => v
  | v, .dwell _ :: rest => levelAfter l v rest
  | v, .write k b a :: rest => levelAfter l (if k = l then Level.after b a else v) rest

/-! ### Events (R120) -/

/-- The grammar of R120: `( PRESS [HOLD] RELEASE )* [ PRESS [HOLD] ] [ END | TIMER_FAILURE ]`. -/
def inGrammar : List Event → Bool
  | [] => true
  | [.press] => true
  | [.seqEnd] => true
  | [.timerFailure] => true
  | [.press, .hold] => true
  | [.press, .seqEnd] => true
  | [.press, .timerFailure] => true
  | [.press, .hold, .seqEnd] => true
  | [.press, .hold, .timerFailure] => true
  | .press :: .hold :: .release :: rest => inGrammar rest
  | .press :: .release :: rest => inGrammar rest
  | _ => false

/-- The phase after an event, from a phase that can emit it (the events of R104 to R112). -/
def Phase.after : Phase → Event → Option Phase
  | .idle, .press => some .pressed
  | .pressed, .hold => some .held
  | .pressed, .release => some .idle
  | .held, .release => some .idle
  | .idle, .seqEnd | .pressed, .seqEnd | .held, .seqEnd => some .ended
  | .idle, .timerFailure | .pressed, .timerFailure | .held, .timerFailure => some .ended
  | _, _ => none

/-- The phase after a history of events, if it can be one. -/
def phaseAfter (events : List Event) : Option Phase :=
  events.foldl (fun p e => p.bind (·.after e)) (some .idle)

/-! ### Invariants -/

/-- A result record as R23 and R68 allow it. -/
def Res.wf (r : Res) : Bool :=
  match r.code with
  | .lineWriteFailure => decide (r.line = 14) || decide (r.line = 15) || decide (r.line = 18)
  | .ok | .illegalCommand | .lineExportFailure => decide (r.line = 0)

/-- The command path: R6, R22, R23, R24, R25, R38, R49, R93, and R19 with the trace. -/
structure CommandInv (s : State) : Prop where
  /-- R8 -/
  config : s.cfg.legal = true
  /-- R22: `cur` is none exactly when `busy` is false. -/
  running : s.cmd.busy = s.cmd.cur.isSome
  /-- R25: `enc_ops` is empty whenever `busy` is false; a command in progress has something left to do. -/
  loaded : s.cmd.busy = !s.cmd.encOps.isEmpty
  /-- R25, R49: the command in progress is a host command, what remains is the rest of its primitives, and the trace
  ends with those it has performed and nothing between them. -/
  current : ∀ i, s.cmd.cur = some i → i.isCommand = true ∧ ∃ done before,
    commandOps s.cfg i = done ++ s.cmd.encOps ∧ s.cmd.trace = before ++ done.map (Prim.traced s.cfg.dwellNs)
  /-- R23: `res` is the record of the last completed command. -/
  lastResult : s.cmd.res = s.cmd.results.getLastD ⟨.ok, 0⟩
  /-- R23, R68 -/
  resultWf : ∀ r ∈ s.cmd.results, r.wf = true
  /-- R24, R122: after a failed construction nothing runs and no line has been written. -/
  failed : s.init = .exportFailed → s.cmd.busy = false ∧ s.cmd.trace = [] ∧ ∀ l, s.lines.level l = .unknown
  /-- R19, R91: each line holds its default level or what the last write to it left. -/
  levels : s.init = .ready → ∀ l, s.lines.level l = levelAfter l l.defaultLevel s.cmd.trace
  /-- R38, R156: the directions and the edge sensing of the four lines. -/
  ports : s.init = .ready → s.lines.fanPort = some ⟨.output, .none⟩ ∧ s.lines.dataPort = some ⟨.output, .none⟩ ∧
    s.lines.clkPort = some ⟨.output, .none⟩ ∧ s.lines.buttonPort = some ⟨.input, buttonEdges s.cfg⟩
  /-- R93: the dwell timer counts from the past. -/
  dwell : s.cmd.dwellFrom ≤ s.now

/-- The button path: R26, R27, R30, R120, R122. -/
structure ButtonInv (s : State) : Prop where
  /-- R26: the deadline is armed exactly in phase Pressed. -/
  armed : s.fsm.deadline.isSome = decide (s.fsm.phase = .pressed)
  /-- R27: `end_kind` is none exactly when the phase is not Ended. -/
  reason : s.fsm.endKind.isSome = decide (s.fsm.phase = .ended)
  /-- R120: the events emitted so far lead to the phase. -/
  history : phaseAfter s.emitted = some s.fsm.phase
  /-- R53: `evq` holds the last events emitted, in order. -/
  queued : s.evq <:+ s.emitted
  /-- R30 -/
  depth : ∀ n, s.cfg.evDepth = some n → s.evq.length ≤ n
  /-- R122 -/
  failed : s.init = .exportFailed → s.fsm.phase = .idle ∧ s.emitted = []

/-- The trigger queue and the level source: R28, R29, R119. -/
structure QueueInv (s : State) : Prop where
  /-- R119 (b) -/
  codes : ∀ e ∈ s.inq, queueable e.1 = true
  /-- R119 (a): timestamps are non-decreasing. -/
  stamps : (s.inq.map (·.2)).Pairwise (· ≤ ·)
  /-- R119 (a): no timestamp lies ahead of `now`. -/
  past : ∀ e ∈ s.inq, e.2 ≤ s.now
  /-- R119 (c): nothing stands behind a terminal trigger. -/
  terminalLast : ∀ e ∈ s.inq.dropLast, terminalCode e.1 = false
  /-- R119 (c), R113 -/
  drained : s.fsm.phase = .ended → s.inq = []
  /-- R29 -/
  capacity : ∀ n, s.cfg.inDepth = some n → s.inq.length ≤ n
  /-- R28, R117: a previous sample has a time, and it lies in the past. -/
  sampled : s.src.prev.isSome = s.src.lastSample.isSome
  /-- R117 -/
  samplePast : ∀ t, s.src.lastSample = some t → t ≤ s.now
  /-- R28: `prev` exists only in POLL mode. -/
  edgeMode : s.cfg.sourceMode = .edge → s.src.prev = none
  /-- R38, R116: in POLL mode the button line senses no edges, and none is pending. -/
  pollMode : s.cfg.sourceMode = .poll → s.edgeSensing = false ∧ s.src.pendingEdges = 0

end Sys2Proof.Machine
end

