-- ==== Sys2Proof/Certificates/Slice0/Obligations.lean ====
section
/-!
DEFINITION. The statements for the provers, from the numbered rules of the spec.
-/

open Sys2Proof Sys2Proof.Machine

/-! ### Construction and configuration -/

/-- R145, R146: the exports in order, each line's direction and edge sensing and each output's default level, the stop at
the first failure; the trace starts empty. That a line never exported is held as unknown with no port, where the spec says
that the block does not drive it, is the model's (logs 14 and 15). -/
def Obligations.ConstructionExportsTheLinesInOrder : Prop :=
  ∀ (s : State) (c : Cfg) (a : ExportAnswers), c.legal = true →
    ∃ t, s.construct c a = .next t ∧ t.cfg = c ∧ t.cmd.trace = [] ∧
      (a = ⟨.ok, .ok, .ok, .ok⟩ → t.init = .ready ∧
        t.lines = ⟨.high, .low, .low, some ⟨.output, .none⟩, some ⟨.output, .none⟩, some ⟨.output, .none⟩,
          some ⟨.input, if c.sourceMode = .edge then .both else .none⟩⟩) ∧
      (a.fan = .fail → t.init = .exportFailed ∧
        t.lines = ⟨.unknown, .unknown, .unknown, none, none, none, none⟩) ∧
      (a.fan = .ok → a.data = .fail → t.init = .exportFailed ∧
        t.lines = ⟨.unknown, .unknown, .unknown, some ⟨.output, .none⟩, none, none, none⟩) ∧
      (a.fan = .ok → a.data = .ok → a.clk = .fail → t.init = .exportFailed ∧
        t.lines = ⟨.unknown, .unknown, .unknown, some ⟨.output, .none⟩, some ⟨.output, .none⟩, none, none⟩) ∧
      (a.fan = .ok → a.data = .ok → a.clk = .ok → a.button = .fail → t.init = .exportFailed ∧
        t.lines = ⟨.unknown, .unknown, .unknown, some ⟨.output, .none⟩, some ⟨.output, .none⟩,
          some ⟨.output, .none⟩, none⟩)

/-- R36: the reset table, after any construction that succeeds, in `State.reset`, and after a construction that fails.
What the table leaves to the environment (`btn_lvl`, `now`) is not claimed. That an output line never exported is held as
unknown too is the model's (log 14). -/
def Obligations.ResetTableHolds : Prop :=
  (∀ (s t : State) (c : Cfg) (a : ExportAnswers), s.construct c a = .next t →
    (t.init = .ready → t.lines.fan = .high ∧ t.lines.data = .low ∧ t.lines.clk = .low) ∧
    (t.init = .exportFailed → t.lines.fan = .unknown ∧ t.lines.data = .unknown ∧ t.lines.clk = .unknown) ∧
    t.cmd.busy = false ∧ t.cmd.cur = none ∧ t.cmd.res = ⟨.ok, 0⟩ ∧ t.cmd.encOps = [] ∧ t.fsm = ⟨.idle, none, none⟩ ∧
    t.src.prev = none ∧ t.inq = [] ∧ t.evq = []) ∧
  State.reset.init = .ready ∧ State.reset.lines.fan = .high ∧ State.reset.lines.data = .low ∧
  State.reset.lines.clk = .low ∧ State.reset.cmd.busy = false ∧ State.reset.cmd.cur = none ∧
  State.reset.cmd.res = ⟨.ok, 0⟩ ∧ State.reset.cmd.encOps = [] ∧ State.reset.fsm = ⟨.idle, none, none⟩ ∧
  State.reset.src.prev = none ∧ State.reset.inq = [] ∧ State.reset.evq = []

/-- R144: `State.reset` is the state a construction with the default configuration ends in when every export answers
`ok`. (That `now` and `btn_lvl` stay as they were is the model's choice, log 21.) -/
def Obligations.ResetIsAConstruction : Prop :=
  State.reset.construct Cfg.default ⟨.ok, .ok, .ok, .ok⟩ = .next State.reset

/-- R8, with the legal values of R6. -/
def Obligations.IllegalConfigurationIsRefused : Prop :=
  (∀ c : Cfg, c.legal = true ↔
    (32 ≤ c.startPulses ∧ c.startPulses ≤ 36) ∧ (32 ≤ c.endPulses ∧ c.endPulses ≤ 255) ∧ 250 ≤ c.dwellNs ∧
    1 ≤ c.holdTimeNs ∧ 1 ≤ c.pollIntervalNs ∧ (∀ n, c.inDepth = some n → 1 ≤ n) ∧
    (∀ n, c.evDepth = some n → 1 ≤ n)) ∧
  (∀ (s : State) (c : Cfg) (a : ExportAnswers), c.legal = false → s.construct c a = .refused .illegalConfig) ∧
  (∀ s : State, s.cfg.legal = false → step s = .refused .illegalConfig)

/-- R6, R24, R32, R38: a step is the step relation of R6 on the state, at the instance's configuration, which no step
writes, a construction among them; and no move but a construction changes `init` or a line's direction or edge sensing. -/
def Obligations.ConfigurationInitAndPortsAreFixed : Prop :=
  ∀ s t : State, step s = .next t →
    s.toBlock.stepWith s.cfg = .next t.toBlock ∧ t.cfg = s.cfg ∧
    (∀ m rest, s.script = m :: rest → State.takeMove { s with script := rest } m = .next t) ∧
    (s.keepsBlock →
      t.init = s.init ∧ t.lines.fanPort = s.lines.fanPort ∧ t.lines.dataPort = s.lines.dataPort ∧
      t.lines.clkPort = s.lines.clkPort ∧ t.lines.buttonPort = s.lines.buttonPort)

/-! ### Encodings -/

/-- Decoding the bits of a well-formed instruction gives back what those bits say: the instruction itself, but for the
pseudo-instructions (R71) and the end frames the wire cannot tell from another frame (R85, R61). -/
def Obligations.EncodedInstructionsDecodeBack : Prop :=
  ∀ i : Instr, i.wf = true → decode (encode i) = .ok i.reading

/-- The other direction, for the command words and the trigger codes: no bit of one is dropped. -/
def Obligations.DecodedWordsEncodeBack : Prop :=
  (∀ (cw : CmdWord) (i : Instr), decodeCommand cw = .ok i → encode i = .command cw) ∧
  (∀ (c : TrigCode) (t : Time) (i : Instr), decodeTrigger c t = .ok i → i ≠ .deadline → encode i = .trigger c t) ∧
  (∀ (c : TrigCode) (t : Time), decodeTrigger c t = .ok .deadline ↔ c = 0xC0)

/-- R59: which command words are illegal. -/
def Obligations.IllegalWordsAreTheReservedOnes : Prop :=
  ∀ cw : CmdWord, decodeCommand cw = .error .illegalCommand ↔
    (cw.extractLsb' 60 4 ≠ 1#4 ∧ cw.extractLsb' 60 4 ≠ 2#4) ∨
    (cw.extractLsb' 60 4 = 1#4 ∧ cw.extractLsb' 56 4 ≠ 0#4) ∨
    (cw.extractLsb' 60 4 = 2#4 ∧ cw.extractLsb' 1 59 ≠ 0#59)

/-- Words written out from the encodings of R55, R61 and R67 decode to the instructions they stand for. That the 8-bit word
of an OBS has timestamp 0 is the model's (log 32): R67 packs the timestamp in no word. -/
def Obligations.WrittenOutWordsDecode : Prop :=
  decodeTableWord 64 0x101234563F000000 = some (.setLed 0x12 0x34 0x56 0x3F000000) ∧
  decodeTableWord 64 0x2000000000000001 = some (.setFan true) ∧
  decodeTableWord 8 0x01 = some (.obs true 0) ∧
  decodeTableWord 8 0xC0 = some .deadline ∧
  decodeTableWord 32 0xF0563412 = some (.ledFrame 16 0x56 0x34 0x12)

/-! ### Brightness -/

/-- R73's corner cases: NaN, at least 1, at most 0. -/
def Obligations.ClampedBrightnessCorners : Prop :=
  ∀ b : F32, (isNaN b = true → quantizeClamp b = 0) ∧
    (isNaN b = false → f32Le f32One b = true → quantizeClamp b = 31) ∧
    (isNaN b = false → f32Le b f32Zero = true → quantizeClamp b = 0)

/-- R75: on [0, 1] both modes give the rounded product, a value from 0 to 31. -/
def Obligations.ModesAgreeOnTheUnitRange : Prop :=
  (∀ b : F32, isNaN b = false → f32Le f32Zero b = true → f32Le b f32One = true →
    ∃ k : Nat, k ≤ 31 ∧ roundHalfAway (f32Mul f32ThirtyOne b) = (k : Int) ∧
      quantizeClamp b = BitVec.ofNat 5 k ∧ quantizeWrap b = BitVec.ofNat 5 k) ∧
  quantizeClamp f32Zero = 0 ∧ quantizeWrap f32Zero = 0 ∧ quantizeClamp f32One = 31 ∧ quantizeWrap f32One = 31

/-- R76: `quantize_clamp` is monotone on non-NaN inputs; `quantize_wrap` is not (1.0 against 1.04). -/
def Obligations.ClampedBrightnessIsMonotone : Prop :=
  (∀ a b : F32, isNaN a = false → isNaN b = false → f32Le a b = true →
    (quantizeClamp a).toNat ≤ (quantizeClamp b).toNat) ∧
  f32Le f32One 0x3F851EB8 = true ∧ quantizeWrap f32One = 31 ∧ quantizeWrap 0x3F851EB8 = 0

/-- From +0.0 to 1.0 the field lies within 1/2 + 2^-20 of the exact 31·b; the margin over 1/2 is for the rounding of the
binary32 product. Both sides are multiplied by 2^151; `f32Mant b * 2 ^ f32Scale b / 2^150` is b (R64). -/
def Obligations.FieldIsCloseToThirtyOneTimesBrightness : Prop :=
  ∀ b : F32, isNaN b = false → f32Le f32Zero b = true → f32Le b f32One = true → f32Sign b = false →
    2 ^ 151 * (quantizeClamp b).toNat ≤ 2 * (31 * f32Mant b * 2 ^ f32Scale b) + (2 ^ 150 + 2 ^ 131) ∧
    2 * (31 * f32Mant b * 2 ^ f32Scale b) ≤ 2 ^ 151 * (quantizeClamp b).toNat + (2 ^ 150 + 2 ^ 131)

/-- R74, for every pattern: the open parameter for a NaN, an infinite product and a rounded product below 0 or above 255,
and the rounded product mod 32 otherwise; with the WRAP column of table T1. That the open parameter is one opaque function,
and no field of `cfg`, is the model's (log 17). -/
def Obligations.WrapModeOnEveryPattern : Prop :=
  (∀ b : F32,
    (isNaN b = true ∨ isInf (f32Mul f32ThirtyOne b) = true ∨ roundHalfAway (f32Mul f32ThirtyOne b) < 0 ∨
        255 < roundHalfAway (f32Mul f32ThirtyOne b) →
      quantizeWrap b = Config.wrapOutOfRange b) ∧
    (isNaN b = false → isInf (f32Mul f32ThirtyOne b) = false → 0 ≤ roundHalfAway (f32Mul f32ThirtyOne b) →
      roundHalfAway (f32Mul f32ThirtyOne b) ≤ 255 →
      ((quantizeWrap b).toNat : Int) = roundHalfAway (f32Mul f32ThirtyOne b) % 32)) ∧
  ([0x00000000, 0x80000000, 0x00000001, 0x3D03126F, 0x3E800000, 0x3F000000, 0x3F400000, 0x3F7FFFFF, 0x3F800000,
    0x3F800001, 0x3F820821, 0x3F8420C4, 0x3F851EB8, 0x3FC00000, 0x40000000, 0x41000000, 0xBC23D70A] :
    List F32).map quantizeWrap = [0, 0, 0, 1, 8, 16, 23, 31, 31, 31, 31, 0, 0, 15, 30, 24, 0] ∧
  ∀ b ∈ ([0x41200000, 0x43000000, 0x7F7FFFFF, 0xBF000000, 0x7F800000, 0xFF800000, 0x7FC00000, 0xFFC00000] : List F32),
    quantizeWrap b = Config.wrapOutOfRange b

/-! ### Frames -/

/-- R77: `CB = 0xE0 | field`, a value from 0xE0 to 0xFF. -/
def Obligations.ControlByteHoldsTheField : Prop :=
  ∀ f : Field5, controlByte f = 0xE0#8 ||| f.setWidth 8 ∧ 0xE0 ≤ (controlByte f).toNat

/-- R82: the eight bits of a byte, most significant first, each written to the data line and clocked once. -/
def Obligations.BytesAreSentMostSignificantBitFirst : Prop :=
  (∀ x : Byte, byteOps x = [7, 6, 5, 4, 3, 2, 1, 0].flatMap fun j =>
    [.w .data (x.getLsbD j), .w .clk true, .d, .w .clk false, .d]) ∧
  ((writesOf (byteOps 0xB0)).filter (Prim.writesLine .data)) =
    [.w .data true, .w .data false, .w .data true, .w .data true, .w .data false, .w .data false, .w .data false,
      .w .data false]

/-- R83 and R85: one write of the data line, then the pulses. -/
def Obligations.StartAndEndFramesAreClockedOut : Prop :=
  (∀ n : Nat, startOps n =
    .w .data false :: (List.replicate n [Prim.w .clk true, .d, .w .clk false, .d]).flatten) ∧
  (∀ (l : Bool) (m : Nat), endOps l m =
    .w .data l :: (List.replicate m [Prim.w .clk true, .d, .w .clk false, .d]).flatten)

/-- R86: the frame is start, data and end, and writes only lines 15 and 14. -/
def Obligations.FrameIsStartDataEndOnTwoLines : Prop :=
  ∀ (c : Cfg) (r g b : Byte) (br : F32),
    commandOps c (.setLed r g b br) =
      startOps c.startPulses ++
      dataOps (0b111#3 ++ (if c.brightnessMode = .clamp then quantizeClamp br else quantizeWrap br)) b g r ++
      endOps c.endLevel c.endPulses ∧
    ∀ l v, Prim.w l v ∈ commandOps c (.setLed r g b br) → l.number = 15 ∨ l.number = 14

/-- R87: the counts of one frame, and the numbers of its writes (counted from 1 there, from 0 here). -/
def Obligations.FrameCountsAndWriteNumbers : Prop :=
  ∀ (c : Cfg) (f : Field5) (b g r : Byte),
    (writesOf (frameOps c f b g r)).length = 2 * c.startPulses + 2 * c.endPulses + 98 ∧
    ((frameOps c f b g r).filter (Prim.writesLine .data)).length = 34 ∧
    ((frameOps c f b g r).filter (Prim.writesLine .clk)).length = 2 * (c.startPulses + 32 + c.endPulses) ∧
    dwellsOf (frameOps c f b g r) = 2 * (c.startPulses + 32 + c.endPulses) ∧
    ((frameOps c f b g r).filter Prim.isClockRise).length = c.startPulses + 32 + c.endPulses ∧
    (frameOps c f b g r).length = 4 * c.startPulses + 4 * c.endPulses + 162 ∧
    (writesOf (frameOps c f b g r))[0]? = some (.w .data false) ∧
    (∀ j, j < c.startPulses →
      (writesOf (frameOps c f b g r))[1 + 2 * j]? = some (.w .clk true) ∧
      (writesOf (frameOps c f b g r))[2 + 2 * j]? = some (.w .clk false)) ∧
    (∀ j, j < 32 →
      (writesOf (frameOps c f b g r))[2 * c.startPulses + 1 + 3 * j]? =
        some (.w .data ((frame32 f b g r).getLsbD (31 - j))) ∧
      (writesOf (frameOps c f b g r))[2 * c.startPulses + 2 + 3 * j]? = some (.w .clk true) ∧
      (writesOf (frameOps c f b g r))[2 * c.startPulses + 3 + 3 * j]? = some (.w .clk false)) ∧
    (writesOf (frameOps c f b g r))[2 * c.startPulses + 97]? = some (.w .data c.endLevel) ∧
    ∀ j, j < c.endPulses →
      (writesOf (frameOps c f b g r))[2 * c.startPulses + 98 + 2 * j]? = some (.w .clk true) ∧
      (writesOf (frameOps c f b g r))[2 * c.startPulses + 99 + 2 * j]? = some (.w .clk false)

/-- R40, R41, R60 to R62: at its rising clock edges the bus carries N zeros, the word `FRAME32` from bit 31 down, and M
cells at `END_LEVEL`, whatever level the data line had before. -/
def Obligations.WireCarriesStartWordEnd : Prop :=
  ∀ (c : Cfg) (f : Field5) (b g r : Byte) (before : Bool),
    wireCells before (frameOps c f b g r) =
      List.replicate c.startPulses false ++
      ((List.range 32).map fun j => (0b111#3 ++ f ++ b ++ g ++ r).getLsbD (31 - j)) ++
      List.replicate c.endPulses c.endLevel

/-! ### Host commands -/

/-- R88: SET_LED on a free port, in a block that is ready and in one whose construction failed. Everything not named
is unchanged. (`dwellFrom` is the model's dwell timer, log 11.) -/
def Obligations.SetLedLoadsItsFrame : Prop :=
  ∀ (s : State) (r g b : Byte) (br : F32), s.cmd.busy = false →
    (s.init = .ready → exec (.setLed r g b br) s = .next { s with cmd := { s.cmd with
      busy := true
      cur := some (.setLed r g b br)
      encOps := startOps s.cfg.startPulses ++
        dataOps (0b111#3 ++ (if s.cfg.brightnessMode = .clamp then quantizeClamp br else quantizeWrap br)) b g r ++
        endOps s.cfg.endLevel s.cfg.endPulses
      dwellFrom := s.now } }) ∧
    (s.init = .exportFailed → exec (.setLed r g b br) s = .next { s with cmd := { s.cmd with
      busy := false, cur := none, encOps := [], res := ⟨.lineExportFailure, 0⟩,
      results := s.cmd.results ++ [⟨.lineExportFailure, 0⟩] } })

/-- R97: SET_FAN on a free port loads one write of line 18. -/
def Obligations.SetFanLoadsOneWrite : Prop :=
  ∀ (s : State) (on : Bool), s.cmd.busy = false →
    (s.init = .ready → exec (.setFan on) s = .next { s with cmd := { s.cmd with
      busy := true, cur := some (.setFan on), encOps := [.w .fan on], dwellFrom := s.now } }) ∧
    (s.init = .exportFailed → exec (.setFan on) s = .next { s with cmd := { s.cmd with
      busy := false, cur := none, encOps := [], res := ⟨.lineExportFailure, 0⟩,
      results := s.cmd.results ++ [⟨.lineExportFailure, 0⟩] } })

/-- R71: the pseudo-instructions have the words and the effects of their expansions. -/
def Obligations.PseudoInstructionsAreTheirExpansions : Prop :=
  (encode .fanOn = .command 0x2000000000000001 ∧ encode .fanOff = .command 0x2000000000000000 ∧
    encode .ledOff = .command 0x1000000000000000) ∧
  (∀ s : State, exec .fanOn s = exec (.setFan true) s ∧ exec .fanOff s = exec (.setFan false) s ∧
    exec .ledOff s = exec (.setLed 0 0 0 0) s) ∧
  ∀ s : State, s.cmd.busy = false → s.init = .ready →
    exec .fanOn s = .next { s with cmd := { s.cmd with
      busy := true, cur := some (.setFan true), encOps := [.w .fan true], dwellFrom := s.now } } ∧
    exec .fanOff s = .next { s with cmd := { s.cmd with
      busy := true, cur := some (.setFan false), encOps := [.w .fan false], dwellFrom := s.now } } ∧
    exec .ledOff s = .next { s with cmd := { s.cmd with
      busy := true
      cur := some (.setLed 0 0 0 0)
      encOps := startOps s.cfg.startPulses ++ dataOps 0xE0 0 0 0 ++ endOps s.cfg.endLevel s.cfg.endPulses
      dwellFrom := s.now } }

/-- The model's choice for a wire frame (log 7): it adds its primitives (R83 to R85) to the command in progress, or
begins as a command of its own; after a failed construction it performs none. Everything not named is unchanged. -/
def Obligations.WireFramesLoadTheirPrimitives : Prop :=
  ∀ (s : State) (i : Instr) (ops : List Prim),
    ((∃ n, i = .startFrame n ∧ ops = startOps n) ∨
      (∃ f b g r, i = .ledFrame f b g r ∧ ops = dataOps (0b111#3 ++ f) b g r) ∨
      (∃ l m, i = .endFrame l m ∧ ops = endOps l m)) →
    (s.cmd.busy = true → exec i s = .next { s with cmd := { s.cmd with encOps := s.cmd.encOps ++ ops } }) ∧
    (s.cmd.busy = false → s.init = .ready → exec i s = .next { s with cmd := { s.cmd with
      busy := true, cur := some i, encOps := ops, dwellFrom := s.now } }) ∧
    (s.cmd.busy = false → s.init = .exportFailed → exec i s = .next { s with cmd := { s.cmd with
      busy := false, cur := none, encOps := [], res := ⟨.lineExportFailure, 0⟩,
      results := s.cmd.results ++ [⟨.lineExportFailure, 0⟩] } })

/-- R72, R86, R94: what SET_LED loads is what the start frame, the data frame of its quantized brightness and the end
frame load one after the other. -/
def Obligations.SetLedIsItsThreeFrames : Prop :=
  ∀ (s : State) (r g b : Byte) (br : F32), s.cmd.busy = false → s.init = .ready →
    ∃ t₁ t₂ t₃,
      exec (.startFrame s.cfg.startPulses) (s.begin (.setLed r g b br) []) = .next t₁ ∧
      exec (.ledFrame (if s.cfg.brightnessMode = .clamp then quantizeClamp br else quantizeWrap br) b g r) t₁ =
        .next t₂ ∧
      exec (.endFrame s.cfg.endLevel s.cfg.endPulses) t₂ = .next t₃ ∧
      exec (.setLed r g b br) s = .next t₃

/-- R142, D7: while a command runs the host has no issue step, a command presented all the same is held, and nothing else
changes. That the port holds one word, which a second leaves in place, is the model's (log 9). -/
def Obligations.BusyPortHoldsTheWord : Prop :=
  (∀ (s : State) (i : Instr) (cw : CmdWord), s.cmd.busy = true → encode i = .command cw →
    (s.cmd.held = none → exec i s = .next { s with cmd := { s.cmd with held := some cw } }) ∧
    (s.cmd.held ≠ none → exec i s = .next s)) ∧
  (∀ (s : State) (cw : CmdWord) (rest : List Move), s.cfg.legal = true → s.cmd.busy = true →
    (s.script = .issue cw :: rest → step s = .next { s with script := rest }) ∧
    (s.script = .present cw :: rest → s.cmd.held = none →
      step s = .next { s with cmd := { s.cmd with held := some cw }, script := rest }) ∧
    (s.script = .present cw :: rest → s.cmd.held ≠ none → step s = .next { s with script := rest }))

/-- R125: a word the host issues or presents to a free port of a block that is ready runs as the instruction it decodes
to, in the state after the move is taken from the script. -/
def Obligations.StepRunsThePresentedCommand : Prop :=
  ∀ (s : State) (cw : CmdWord) (i : Instr) (rest : List Move), s.cfg.legal = true → s.init = .ready →
    s.cmd.busy = false → s.cmd.held = none → s.script = .issue cw :: rest ∨ s.script = .present cw :: rest →
    decodeCommand cw = .ok i → step s = exec i { s with script := rest }

/-- R142, R125: the word the port holds stays held while a command runs; once `busy` has fallen it is accepted as any word
is: it runs as the instruction it decodes to, or, illegal or after a failed construction, completes at once with its error.
That the port accepts it by a move of its own, after the completing step, and that this move does nothing before, is the
model's (logs 9 and 31). -/
def Obligations.HeldWordRunsOnceThePortIsFree : Prop :=
  ∀ (s : State) (cw : CmdWord) (rest : List Move), s.cfg.legal = true → s.cmd.held = some cw →
    s.script = .accept :: rest →
    (s.cmd.busy = true → step s = .next { s with script := rest }) ∧
    (s.cmd.busy = false → s.init = .ready →
      (∀ i, decodeCommand cw = .ok i →
        step s = exec i { s with cmd := { s.cmd with held := none }, script := rest }) ∧
      (decodeCommand cw = .error .illegalCommand →
        step s = .next { s with
          cmd := { s.cmd with
            held := none, busy := false, cur := none, encOps := [], res := ⟨.illegalCommand, 0⟩,
            results := s.cmd.results ++ [⟨.illegalCommand, 0⟩] }
          script := rest })) ∧
    (s.cmd.busy = false → s.init = .exportFailed →
      step s = .next { s with
        cmd := { s.cmd with
          held := none, busy := false, cur := none, encOps := [], res := ⟨.lineExportFailure, 0⟩,
          results := s.cmd.results ++ [⟨.lineExportFailure, 0⟩] }
        script := rest })

/-- R125: an illegal word completes in one step with ILLEGAL_COMMAND, with no line write and no other change. -/
def Obligations.IllegalWordCompletesAtOnce : Prop :=
  ∀ (s : State) (cw : CmdWord) (rest : List Move), CommandInv s → s.init = .ready →
    s.cmd.busy = false → s.cmd.held = none → s.script = .issue cw :: rest →
    decodeCommand cw = .error .illegalCommand →
    step s = .next { s with
      cmd := { s.cmd with res := ⟨.illegalCommand, 0⟩, results := s.cmd.results ++ [⟨.illegalCommand, 0⟩] }
      script := rest }

/-- R122: after a failed construction every word, legal or not, completes in one step with LINE_EXPORT_FAILURE and no
line write; the state machine takes no step; and only a new construction leaves the condition. -/
def Obligations.FailedConstructionAnswersEveryWord : Prop :=
  ∀ (s : State) (rest : List Move), CommandInv s → s.init = .exportFailed →
    (∀ cw, s.cmd.held = none → s.script = .issue cw :: rest →
      step s = .next { s with
        cmd := { s.cmd with res := ⟨.lineExportFailure, 0⟩, results := s.cmd.results ++ [⟨.lineExportFailure, 0⟩] }
        script := rest }) ∧
    (s.script = .fsm :: rest → step s = .next { s with script := rest }) ∧
    (∀ t, s.keepsBlock → step s = .next t → t.init = .exportFailed)

/-! ### The executor -/

/-- R89: the cases of the executor's step, with everything it leaves unchanged. The last primitive of a command
completes it with OK; a failed write ends it. -/
def Obligations.ExecutorPerformsOnePrimitive : Prop :=
  ∀ (s : State) (rest : List Move), s.cfg.legal = true → s.cmd.busy = true →
    (∀ l v ops, s.cmd.encOps = .w l v :: ops → ops ≠ [] → s.script = .execute .ok :: rest →
      step s = .next { s with
        lines := s.lines.setLevel l (if v then .high else .low)
        cmd := { s.cmd with encOps := ops, trace := s.cmd.trace ++ [.write l v .ok], dwellFrom := s.now }
        script := rest }) ∧
    (∀ l v, s.cmd.encOps = [.w l v] → s.script = .execute .ok :: rest →
      step s = .next { s with
        lines := s.lines.setLevel l (if v then .high else .low)
        cmd := { s.cmd with
          encOps := [], trace := s.cmd.trace ++ [.write l v .ok], dwellFrom := s.now,
          busy := false, cur := none, res := ⟨.ok, 0⟩, results := s.cmd.results ++ [⟨.ok, 0⟩] }
        script := rest }) ∧
    (∀ l v ops, s.cmd.encOps = .w l v :: ops → s.script = .execute .fail :: rest →
      step s = .next { s with
        lines := s.lines.setLevel l .unknown
        cmd := { s.cmd with
          encOps := [], trace := s.cmd.trace ++ [.write l v .fail], dwellFrom := s.now,
          busy := false, cur := none, res := ⟨.lineWriteFailure, l.number⟩,
          results := s.cmd.results ++ [⟨.lineWriteFailure, l.number⟩] }
        script := rest }) ∧
    (∀ ops a, s.cmd.encOps = .d :: ops → ops ≠ [] → s.script = .execute a :: rest →
      s.cmd.dwellFrom + s.cfg.dwellNs ≤ s.now →
      step s = .next { s with
        cmd := { s.cmd with encOps := ops, trace := s.cmd.trace ++ [.dwell s.cfg.dwellNs], dwellFrom := s.now }
        script := rest }) ∧
    (∀ a, s.cmd.encOps = [.d] → s.script = .execute a :: rest → s.cmd.dwellFrom + s.cfg.dwellNs ≤ s.now →
      step s = .next { s with
        cmd := { s.cmd with
          encOps := [], trace := s.cmd.trace ++ [.dwell s.cfg.dwellNs], dwellFrom := s.now,
          busy := false, cur := none, res := ⟨.ok, 0⟩, results := s.cmd.results ++ [⟨.ok, 0⟩] }
        script := rest })

/-- R89, R93: the executor takes no step when `busy = false`, and none while a dwell is not over. -/
def Obligations.ExecutorWaits : Prop :=
  ∀ (s : State) (a : Answer) (rest : List Move), s.cfg.legal = true → s.script = .execute a :: rest →
    (s.cmd.busy = false → step s = .next { s with script := rest }) ∧
    (∀ ops, s.cmd.busy = true → s.cmd.encOps = .d :: ops → s.now < s.cmd.dwellFrom + s.cfg.dwellNs →
      step s = .next { s with script := rest })

/-- R98: SET_FAN always performs its write, whatever the line holds, and its result is the answer to that write. -/
def Obligations.SetFanResultIsTheAnswer : Prop :=
  ∀ (s : State) (on : Bool) (a : Answer) (rest : List Move), s.cfg.legal = true → s.init = .ready →
    s.cmd.busy = false → s.cmd.held = none →
    s.script = .issue (0x200000000000000#60 ++ (0#3 ++ BitVec.ofBool on)) :: .execute a :: rest →
    ∃ t, run 2 s = .next t ∧ t.cmd.busy = false ∧ t.cmd.trace = s.cmd.trace ++ [.write .fan on a] ∧
      t.script = rest ∧ t.lines.data = s.lines.data ∧ t.lines.clk = s.lines.clk ∧
      (a = .ok → t.lines.fan = (if on then .high else .low) ∧ t.cmd.res = ⟨.ok, 0⟩) ∧
      (a = .fail → t.lines.fan = .unknown ∧ t.cmd.res = ⟨.lineWriteFailure, 18⟩)

/-- R92, R153, R159: from any line levels, a SET_LED whose writes all answer `ok` performs its whole frame, in order and
with nothing between, completes with OK, and leaves the data line at END_LEVEL and the clock low. Its script gives each
dwell just `DWELL_NS`, so the time it takes is 2·(N+32+M) of them. (`dwellFrom` is the model's dwell timer, log 11; the
trace is a history, log 16.) -/
def Obligations.SetLedPlaysItsWholeFrame : Prop :=
  ∀ (s : State) (r g b : Byte) (br : F32) (rest : List Move), s.cfg.legal = true → s.init = .ready →
    s.cmd.busy = false → s.cmd.held = none →
    s.script = .issue (0x10#8 ++ r ++ g ++ b ++ br) ::
      (playMoves s.cfg.dwellNs s.now (commandOps s.cfg (.setLed r g b br)) ++ rest) →
    run (1 + (playMoves s.cfg.dwellNs s.now (commandOps s.cfg (.setLed r g b br))).length) s = .next { s with
      lines := { s.lines with data := (if s.cfg.endLevel then .high else .low), clk := .low }
      cmd := { s.cmd with
        busy := false, cur := none, encOps := [], res := ⟨.ok, 0⟩
        results := s.cmd.results ++ [⟨.ok, 0⟩]
        trace := s.cmd.trace ++ (commandOps s.cfg (.setLed r g b br)).map (Prim.traced s.cfg.dwellNs)
        dwellFrom := s.now + 2 * (s.cfg.startPulses + 32 + s.cfg.endPulses) * s.cfg.dwellNs }
      now := s.now + 2 * (s.cfg.startPulses + 32 + s.cfg.endPulses) * s.cfg.dwellNs
      script := rest }

/-- R90, R91: when a write of a SET_LED fails, the trace holds the primitives before it and the failed write, and nothing
more; the result names the line, whose level is unknown; nothing is retried or rolled back. (The trace is a history,
log 16.) -/
def Obligations.FailedWriteAbortsTheFrame : Prop :=
  ∀ (s : State) (r g b : Byte) (br : F32) (done ops : List Prim) (l : OutLine) (v : Bool) (rest : List Move),
    s.cfg.legal = true → s.init = .ready → s.cmd.busy = false → s.cmd.held = none →
    commandOps s.cfg (.setLed r g b br) = done ++ .w l v :: ops →
    s.script = .issue (0x10#8 ++ r ++ g ++ b ++ br) ::
      (playMoves s.cfg.dwellNs s.now done ++ .execute .fail :: rest) →
    ∃ t, run (2 + (playMoves s.cfg.dwellNs s.now done).length) s = .next t ∧
      t.cmd.trace = s.cmd.trace ++ done.map (Prim.traced s.cfg.dwellNs) ++ [.write l v .fail] ∧
      t.cmd.res = ⟨.lineWriteFailure, l.number⟩ ∧ t.cmd.busy = false ∧ t.cmd.cur = none ∧ t.cmd.encOps = [] ∧
      t.lines.level l = .unknown ∧
      (∀ k, k ≠ l → t.lines.level k =
        levelAfter k (s.lines.level k) (done.map (Prim.traced s.cfg.dwellNs))) ∧
      t.fsm = s.fsm ∧ t.inq = s.inq ∧ t.evq = s.evq ∧ t.script = rest

/-- R93, R159: over any run of one block, the dwells performed have taken at least `DWELL_NS` each. -/
def Obligations.DwellsTakeTheirTime : Prop :=
  ∀ (n : Nat) (s t : State), CommandInv s → s.keepsBlockFor n → run n s = .next t →
    s.cmd.dwellFrom + s.cfg.dwellNs * tracedDwells t.cmd.trace ≤
      t.cmd.dwellFrom + s.cfg.dwellNs * tracedDwells s.cmd.trace ∧
    t.cmd.dwellFrom ≤ t.now

/-- R22, R23: a step writes at most one result, which is then `res` and ends the command; and while a command runs,
`cur` stays until its result is written. -/
def Obligations.ResultsAreWrittenOncePerCommand : Prop :=
  ∀ s t : State, s.keepsBlock → step s = .next t →
    ((t.cmd.results = s.cmd.results ∧ t.cmd.res = s.cmd.res) ∨
      (t.cmd.results = s.cmd.results ++ [t.cmd.res] ∧ t.cmd.res.wf = true ∧ t.cmd.busy = false ∧ t.cmd.cur = none ∧
        t.cmd.encOps = [])) ∧
    (s.cmd.busy = true → t.cmd.cur = s.cmd.cur ∨ t.cmd.results = s.cmd.results ++ [t.cmd.res])

/-! ### The button state machine -/

/-- R105 to R110: what an observation does in each phase, when R103 lets it be processed. -/
def Obligations.ObservationTable : Prop :=
  ∀ (s : State) (t : Time), s.init = .ready → s.cfg.evDepth ≠ some s.evq.length →
    (s.fsm.phase = .idle →
      exec (.obs false t) s = .next { s with
        fsm := { s.fsm with phase := .pressed, deadline := some (t + s.cfg.holdTimeNs) }
        evq := s.evq ++ [.press], emitted := s.emitted ++ [.press] } ∧
      exec (.obs true t) s = .next s) ∧
    (∀ d, s.fsm.phase = .pressed → s.fsm.deadline = some d → t < d →
      exec (.obs false t) s = .next s ∧
      exec (.obs true t) s = .next { s with
        fsm := { s.fsm with phase := .idle, deadline := none }
        evq := s.evq ++ [.release], emitted := s.emitted ++ [.release] }) ∧
    (s.fsm.phase = .held →
      exec (.obs false t) s = .next s ∧
      exec (.obs true t) s = .next { s with
        fsm := { s.fsm with phase := .idle }
        evq := s.evq ++ [.release], emitted := s.emitted ++ [.release] })

/-- R111, R112: the two terminal triggers. -/
def Obligations.TerminalTriggersEndTheSequence : Prop :=
  ∀ (s : State) (t : Time), s.init = .ready → s.cfg.evDepth ≠ some s.evq.length → s.fsm.phase ≠ .ended →
    (∀ d, s.fsm.phase = .pressed → s.fsm.deadline = some d → t < d) →
    exec (.srcEnd t) s = .next { s with
      fsm := ⟨.ended, none, some .sourceEnd⟩
      evq := s.evq ++ [.seqEnd], emitted := s.emitted ++ [.seqEnd] } ∧
    exec (.timerFail t) s = .next { s with
      fsm := ⟨.ended, none, some .timerFailure⟩
      evq := s.evq ++ [.timerFailure], emitted := s.emitted ++ [.timerFailure] }

/-- R104: the DEADLINE step, when R103 selects it: the head of `inq` is stamped at or after the deadline, or `inq` is
empty and `now` has reached it. -/
def Obligations.DeadlineEmitsHold : Prop :=
  ∀ (s : State) (d : Time), s.init = .ready → s.cfg.evDepth ≠ some s.evq.length → s.fsm.phase = .pressed →
    s.fsm.deadline = some d →
    ((∃ c t rest, s.inq = (c, t) :: rest ∧ d ≤ t) ∨ (s.inq = [] ∧ d ≤ s.now)) →
    exec .deadline s = .next { s with
      fsm := { s.fsm with phase := .held, deadline := none }
      evq := s.evq ++ [.hold], emitted := s.emitted ++ [.hold] }

/-- R103, R113, R122: when the state machine has ended, construction failed or the output is full, no trigger has an
effect; and a trigger stamped at or after an armed deadline is not taken before it. -/
def Obligations.UnselectedTriggersHaveNoEffect : Prop :=
  ∀ (s : State) (t : Time) (v : Bool),
    (s.fsm.phase = .ended ∨ s.init = .exportFailed ∨ s.cfg.evDepth = some s.evq.length →
      exec (.obs v t) s = .next s ∧ exec (.srcEnd t) s = .next s ∧ exec (.timerFail t) s = .next s ∧
      exec .deadline s = .next s) ∧
    (∀ d, s.fsm.phase = .pressed → s.fsm.deadline = some d → d ≤ t →
      exec (.obs v t) s = .next s ∧ exec (.srcEnd t) s = .next s ∧ exec (.timerFail t) s = .next s)

/-- R103: the state machine's step. A ready deadline goes first and leaves `inq` as it is; otherwise the head of `inq`
is removed and runs as the instruction it decodes to; with neither there is no step, and none when the machine has
ended, construction failed or the output is full. -/
def Obligations.StateMachineStepSelection : Prop :=
  ∀ (s : State) (moves : List Move), s.cfg.legal = true → s.script = .fsm :: moves →
    ((s.fsm.phase = .ended ∨ s.init = .exportFailed ∨ s.cfg.evDepth = some s.evq.length) →
      step s = .next { s with script := moves }) ∧
    (s.fsm.phase ≠ .ended → s.init = .ready → s.cfg.evDepth ≠ some s.evq.length →
      (∀ d, s.fsm.phase = .pressed → s.fsm.deadline = some d →
        ((∃ c t rest, s.inq = (c, t) :: rest ∧ d ≤ t) ∨ (s.inq = [] ∧ d ≤ s.now)) →
        step s = exec .deadline { s with script := moves }) ∧
      (∀ c t rest i, s.inq = (c, t) :: rest → (∀ d, s.fsm.phase = .pressed → s.fsm.deadline = some d → t < d) →
        decodeTrigger c t = .ok i → i ≠ .deadline →
        step s = exec i { s with inq := rest, script := moves }) ∧
      (s.inq = [] → (∀ d, s.fsm.phase = .pressed → s.fsm.deadline = some d → s.now < d) →
        step s = .next { s with script := moves }))

/-- R114: a step emits at most one code, only the state machine's own step emits one, and it goes to the end of `evq`. -/
def Obligations.AtMostOneCodePerStep : Prop :=
  ∀ s t : State, s.keepsBlock → step s = .next t →
    t.emitted = s.emitted ∨
    ∃ e moves, s.script = .fsm :: moves ∧ t.emitted = s.emitted ++ [e] ∧ t.evq = s.evq ++ [e]

/-- R115: every step that leaves Pressed disarms the deadline, and a step that emits a Hold starts in Pressed with a
deadline armed. -/
def Obligations.LeavingPressedDisarmsTheDeadline : Prop :=
  ∀ s t : State, step s = .next t →
    (s.fsm.phase = .pressed → t.fsm.phase ≠ .pressed → t.fsm.deadline = none) ∧
    (t.emitted = s.emitted ++ [.hold] → s.fsm.phase = .pressed ∧ s.fsm.deadline ≠ none)

/-- R160: a Hold is emitted no earlier than its deadline. -/
def Obligations.HoldIsNeverEarly : Prop :=
  ∀ s t : State, QueueInv s → s.keepsBlock → step s = .next t → t.emitted = s.emitted ++ [.hold] →
    ∃ d, s.fsm.phase = .pressed ∧ s.fsm.deadline = some d ∧ d ≤ s.now

/-- R113, R133: in Ended nothing more is emitted, `inq` is left unread, and only a new construction leaves it. -/
def Obligations.EndedIsFinal : Prop :=
  ∀ s t : State, s.fsm.phase = .ended → s.keepsBlock → step s = .next t →
    t.fsm = s.fsm ∧ t.emitted = s.emitted ∧ t.inq = s.inq

/-- R120: after every step the codes emitted match the grammar, from every state that meets the button path's
invariant. (The codes emitted are a history, log 16.) -/
def Obligations.EmittedCodesMatchTheGrammar : Prop :=
  ∀ s t : State, ButtonInv s → step s = .next t → inGrammar t.emitted = true

/-! ### The level source and the clock -/

/-- R119, R29: which appends the model admits; every other is refused. -/
def Obligations.AppendsKeepTheObligations : Prop :=
  ∀ (s : State) (c : TrigCode) (t : Time) (rest : List Move), s.cfg.legal = true → s.script = .append c t :: rest →
    ((c = 0x00 ∨ c = 0x01 ∨ c = 0x40 ∨ c = 0x80) ∧ t = s.now ∧ s.fsm.phase ≠ .ended ∧
      (∀ e ∈ s.inq, e.1 ≠ 0x40 ∧ e.1 ≠ 0x80) ∧ (∀ n, s.cfg.inDepth = some n → s.inq.length < n) →
      step s = .next { s with inq := s.inq ++ [(c, t)], script := rest }) ∧
    (¬((c = 0x00 ∨ c = 0x01 ∨ c = 0x40 ∨ c = 0x80) ∧ t = s.now ∧ s.fsm.phase ≠ .ended ∧
      (∀ e ∈ s.inq, e.1 ≠ 0x40 ∧ e.1 ≠ 0x80) ∧ (∀ n, s.cfg.inDepth = some n → s.inq.length < n)) →
      ∃ r, step s = .refused r)

/-- R117: the polled sample. -/
def Obligations.PolledSamples : Prop :=
  ∀ (s : State) (rest : List Move), s.cfg.legal = true → s.cfg.sourceMode = .poll → s.init = .ready →
    s.script = .sample :: rest →
    (∀ ts, s.src.lastSample = some ts → s.now < ts + s.cfg.pollIntervalNs →
      step s = .next { s with script := rest }) ∧
    ((∀ ts, s.src.lastSample = some ts → ts + s.cfg.pollIntervalNs ≤ s.now) →
      (s.src.prev = none ∨ s.src.prev = some s.src.btnLvl →
        step s = .next { s with
          src := { s.src with prev := some s.src.btnLvl, lastSample := some s.now }, script := rest }) ∧
      (s.src.prev = some (!s.src.btnLvl) → s.fsm.phase ≠ .ended → (∀ e ∈ s.inq, e.1 ≠ 0x40 ∧ e.1 ≠ 0x80) →
        (∀ n, s.cfg.inDepth = some n → s.inq.length < n) →
        step s = .next { s with
          src := { s.src with prev := some s.src.btnLvl, lastSample := some s.now }
          inq := s.inq ++ [(if s.src.btnLvl then 0x01 else 0x00, s.now)]
          script := rest }))

/-- R116: each level change of an edge-sensing button line is an edge, and a delivered edge appends the level read at
delivery, stamped `now`. -/
def Obligations.EdgesAreDelivered : Prop :=
  ∀ (s : State) (rest : List Move), s.cfg.legal = true → s.cfg.sourceMode = .edge →
    s.lines.buttonPort = some ⟨.input, .both⟩ →
    (∀ v, s.script = .button v :: rest →
      step s = .next { s with
        src := { s.src with
          btnLvl := v, pendingEdges := s.src.pendingEdges + (if v = s.src.btnLvl then 0 else 1) }
        script := rest }) ∧
    (s.script = .edge :: rest → 0 < s.src.pendingEdges → s.fsm.phase ≠ .ended →
      (∀ e ∈ s.inq, e.1 ≠ 0x40 ∧ e.1 ≠ 0x80) → (∀ n, s.cfg.inDepth = some n → s.inq.length < n) →
      step s = .next { s with
        src := { s.src with pendingEdges := s.src.pendingEdges - 1 }
        inq := s.inq ++ [(if s.src.btnLvl then 0x01 else 0x00, s.now)]
        script := rest })

/-- R30, R143: the host's pop removes the head of `evq` and changes nothing else; of an empty `evq` it changes nothing
(log 28). -/
def Obligations.HostPopsTheHead : Prop :=
  ∀ (s : State) (rest : List Move), s.cfg.legal = true → s.script = .popEvent :: rest →
    (∀ e es, s.evq = e :: es → step s = .next { s with evq := es, script := rest }) ∧
    (s.evq = [] → step s = .next { s with script := rest })

/-- R31: `now` never decreases, and only the environment's clock move changes it. -/
def Obligations.ClockIsMonotonic : Prop :=
  ∀ s t : State, step s = .next t →
    s.now ≤ t.now ∧ (t.now ≠ s.now → ∃ rest, s.script = .clock t.now :: rest)

/-! ### The whole machine -/

/-- R19, R39, R44: a line's level changes only in a construction or in the executor's step that performs a write of that
line, and then to what the write's answer leaves. -/
def Obligations.OnlyTheExecutorMovesLines : Prop :=
  ∀ (s t : State) (l : OutLine), s.keepsBlock → step s = .next t → t.lines.level l ≠ s.lines.level l →
    ∃ a v ops rest, s.script = .execute a :: rest ∧ s.cmd.busy = true ∧ s.cmd.encOps = .w l v :: ops ∧
      t.lines.level l = (match a with
        | .ok => if v then .high else .low
        | .fail => .unknown)

/-- R50, R129 (d): a step of the executor and a step of the state machine give the same result in either order. -/
def Obligations.ExecutorAndButtonStepsCommute : Prop :=
  ∀ (s : State) (a : Answer) (rest : List Move),
    run 2 { s with script := .execute a :: .fsm :: rest } = run 2 { s with script := .fsm :: .execute a :: rest }

/-- R34: no step depends on an earlier result. Two states that differ only in their result records take the same step,
but for those records. -/
def Obligations.ResultsAreNeverRead : Prop :=
  ∀ (s : State) (r : Res) (rs : List Res),
    mapNext State.eraseResults (step { s with cmd := { s.cmd with res := r, results := rs } }) =
      mapNext State.eraseResults (step s)

/-- The three invariants hold at reset. -/
def Obligations.InvariantsHoldAtReset : Prop :=
  CommandInv State.reset ∧ ButtonInv State.reset ∧ QueueInv State.reset

/-- R19, R22 to R25, R38, R49, R93: every step keeps the invariant of the command path. -/
def Obligations.CommandInvariantIsKept : Prop :=
  ∀ s t : State, CommandInv s → step s = .next t → CommandInv t

/-- R26, R27, R30, R120: every step keeps the invariant of the button path. -/
def Obligations.ButtonInvariantIsKept : Prop :=
  ∀ s t : State, ButtonInv s → step s = .next t → ButtonInv t

/-- R28, R29, R119: every step keeps the invariant of the trigger queue and the level source. -/
def Obligations.QueueInvariantIsKept : Prop :=
  ∀ s t : State, QueueInv s → step s = .next t → QueueInv t
end

