-- ==== Sys2Proof/Laws/State.lean ====
section
/-!
SUPPORT. One lemma per field per update of the state, so that no later proof unfolds a record update.
-/

namespace Sys2Proof.Machine

/-! ### A line write (R13) -/

@[simp] theorem State.lineWrite_cfg (s : State) (l : OutLine) (v : Bool) (a : Answer) :
    (s.lineWrite l v a).cfg = s.cfg := rfl
@[simp] theorem State.lineWrite_init (s : State) (l : OutLine) (v : Bool) (a : Answer) :
    (s.lineWrite l v a).init = s.init := rfl
@[simp] theorem State.lineWrite_lines (s : State) (l : OutLine) (v : Bool) (a : Answer) :
    (s.lineWrite l v a).lines = s.lines.setLevel l (Level.after v a) := rfl
@[simp] theorem State.lineWrite_fsm (s : State) (l : OutLine) (v : Bool) (a : Answer) :
    (s.lineWrite l v a).fsm = s.fsm := rfl
@[simp] theorem State.lineWrite_src (s : State) (l : OutLine) (v : Bool) (a : Answer) :
    (s.lineWrite l v a).src = s.src := rfl
@[simp] theorem State.lineWrite_inq (s : State) (l : OutLine) (v : Bool) (a : Answer) :
    (s.lineWrite l v a).inq = s.inq := rfl
@[simp] theorem State.lineWrite_evq (s : State) (l : OutLine) (v : Bool) (a : Answer) :
    (s.lineWrite l v a).evq = s.evq := rfl
@[simp] theorem State.lineWrite_emitted (s : State) (l : OutLine) (v : Bool) (a : Answer) :
    (s.lineWrite l v a).emitted = s.emitted := rfl
@[simp] theorem State.lineWrite_now (s : State) (l : OutLine) (v : Bool) (a : Answer) :
    (s.lineWrite l v a).now = s.now := rfl
@[simp] theorem State.lineWrite_script (s : State) (l : OutLine) (v : Bool) (a : Answer) :
    (s.lineWrite l v a).script = s.script := rfl
@[simp] theorem State.lineWrite_cmd_held (s : State) (l : OutLine) (v : Bool) (a : Answer) :
    (s.lineWrite l v a).cmd.held = s.cmd.held := rfl
@[simp] theorem State.lineWrite_cmd_busy (s : State) (l : OutLine) (v : Bool) (a : Answer) :
    (s.lineWrite l v a).cmd.busy = s.cmd.busy := rfl
@[simp] theorem State.lineWrite_cmd_cur (s : State) (l : OutLine) (v : Bool) (a : Answer) :
    (s.lineWrite l v a).cmd.cur = s.cmd.cur := rfl
@[simp] theorem State.lineWrite_cmd_res (s : State) (l : OutLine) (v : Bool) (a : Answer) :
    (s.lineWrite l v a).cmd.res = s.cmd.res := rfl
@[simp] theorem State.lineWrite_cmd_encOps (s : State) (l : OutLine) (v : Bool) (a : Answer) :
    (s.lineWrite l v a).cmd.encOps = s.cmd.encOps := rfl
@[simp] theorem State.lineWrite_cmd_dwellFrom (s : State) (l : OutLine) (v : Bool) (a : Answer) :
    (s.lineWrite l v a).cmd.dwellFrom = s.now := rfl
@[simp] theorem State.lineWrite_cmd_trace (s : State) (l : OutLine) (v : Bool) (a : Answer) :
    (s.lineWrite l v a).cmd.trace = s.cmd.trace ++ [.write l v a] := rfl
@[simp] theorem State.lineWrite_cmd_results (s : State) (l : OutLine) (v : Bool) (a : Answer) :
    (s.lineWrite l v a).cmd.results = s.cmd.results := rfl

/-! ### A dwell (R93) -/

@[simp] theorem State.dwellDone_cfg (s : State) : (s.dwellDone).cfg = s.cfg := rfl
@[simp] theorem State.dwellDone_init (s : State) : (s.dwellDone).init = s.init := rfl
@[simp] theorem State.dwellDone_lines (s : State) : (s.dwellDone).lines = s.lines := rfl
@[simp] theorem State.dwellDone_fsm (s : State) : (s.dwellDone).fsm = s.fsm := rfl
@[simp] theorem State.dwellDone_src (s : State) : (s.dwellDone).src = s.src := rfl
@[simp] theorem State.dwellDone_inq (s : State) : (s.dwellDone).inq = s.inq := rfl
@[simp] theorem State.dwellDone_evq (s : State) : (s.dwellDone).evq = s.evq := rfl
@[simp] theorem State.dwellDone_emitted (s : State) : (s.dwellDone).emitted = s.emitted := rfl
@[simp] theorem State.dwellDone_now (s : State) : (s.dwellDone).now = s.now := rfl
@[simp] theorem State.dwellDone_script (s : State) : (s.dwellDone).script = s.script := rfl
@[simp] theorem State.dwellDone_cmd_held (s : State) : (s.dwellDone).cmd.held = s.cmd.held := rfl
@[simp] theorem State.dwellDone_cmd_busy (s : State) : (s.dwellDone).cmd.busy = s.cmd.busy := rfl
@[simp] theorem State.dwellDone_cmd_cur (s : State) : (s.dwellDone).cmd.cur = s.cmd.cur := rfl
@[simp] theorem State.dwellDone_cmd_res (s : State) : (s.dwellDone).cmd.res = s.cmd.res := rfl
@[simp] theorem State.dwellDone_cmd_encOps (s : State) : (s.dwellDone).cmd.encOps = s.cmd.encOps := rfl
@[simp] theorem State.dwellDone_cmd_dwellFrom (s : State) : (s.dwellDone).cmd.dwellFrom = s.now := rfl
@[simp] theorem State.dwellDone_cmd_trace (s : State) :
    (s.dwellDone).cmd.trace = s.cmd.trace ++ [.dwell s.cfg.dwellNs] := rfl
@[simp] theorem State.dwellDone_cmd_results (s : State) : (s.dwellDone).cmd.results = s.cmd.results := rfl

/-! ### A result (R14, R23) -/

@[simp] theorem State.result_cfg (s : State) (c : ResCode) (l : BitVec 5) : (s.result c l).cfg = s.cfg := rfl
@[simp] theorem State.result_init (s : State) (c : ResCode) (l : BitVec 5) : (s.result c l).init = s.init := rfl
@[simp] theorem State.result_lines (s : State) (c : ResCode) (l : BitVec 5) : (s.result c l).lines = s.lines := rfl
@[simp] theorem State.result_fsm (s : State) (c : ResCode) (l : BitVec 5) : (s.result c l).fsm = s.fsm := rfl
@[simp] theorem State.result_src (s : State) (c : ResCode) (l : BitVec 5) : (s.result c l).src = s.src := rfl
@[simp] theorem State.result_inq (s : State) (c : ResCode) (l : BitVec 5) : (s.result c l).inq = s.inq := rfl
@[simp] theorem State.result_evq (s : State) (c : ResCode) (l : BitVec 5) : (s.result c l).evq = s.evq := rfl
@[simp] theorem State.result_emitted (s : State) (c : ResCode) (l : BitVec 5) :
    (s.result c l).emitted = s.emitted := rfl
@[simp] theorem State.result_now (s : State) (c : ResCode) (l : BitVec 5) : (s.result c l).now = s.now := rfl
@[simp] theorem State.result_script (s : State) (c : ResCode) (l : BitVec 5) : (s.result c l).script = s.script := rfl
@[simp] theorem State.result_cmd_held (s : State) (c : ResCode) (l : BitVec 5) :
    (s.result c l).cmd.held = s.cmd.held := rfl
@[simp] theorem State.result_cmd_busy (s : State) (c : ResCode) (l : BitVec 5) : (s.result c l).cmd.busy = false := rfl
@[simp] theorem State.result_cmd_cur (s : State) (c : ResCode) (l : BitVec 5) : (s.result c l).cmd.cur = none := rfl
@[simp] theorem State.result_cmd_res (s : State) (c : ResCode) (l : BitVec 5) : (s.result c l).cmd.res = ⟨c, l⟩ := rfl
@[simp] theorem State.result_cmd_encOps (s : State) (c : ResCode) (l : BitVec 5) : (s.result c l).cmd.encOps = [] := rfl
@[simp] theorem State.result_cmd_dwellFrom (s : State) (c : ResCode) (l : BitVec 5) :
    (s.result c l).cmd.dwellFrom = s.cmd.dwellFrom := rfl
@[simp] theorem State.result_cmd_trace (s : State) (c : ResCode) (l : BitVec 5) :
    (s.result c l).cmd.trace = s.cmd.trace := rfl
@[simp] theorem State.result_cmd_results (s : State) (c : ResCode) (l : BitVec 5) :
    (s.result c l).cmd.results = s.cmd.results ++ [⟨c, l⟩] := rfl

/-! ### An error (R130) -/

@[simp] theorem State.raise_cfg (s : State) (c : ResCode) (l : BitVec 5) : (s.raise c l).cfg = s.cfg := rfl
@[simp] theorem State.raise_init (s : State) (c : ResCode) (l : BitVec 5) : (s.raise c l).init = s.init := rfl
@[simp] theorem State.raise_lines (s : State) (c : ResCode) (l : BitVec 5) : (s.raise c l).lines = s.lines := rfl
@[simp] theorem State.raise_fsm (s : State) (c : ResCode) (l : BitVec 5) : (s.raise c l).fsm = s.fsm := rfl
@[simp] theorem State.raise_src (s : State) (c : ResCode) (l : BitVec 5) : (s.raise c l).src = s.src := rfl
@[simp] theorem State.raise_inq (s : State) (c : ResCode) (l : BitVec 5) : (s.raise c l).inq = s.inq := rfl
@[simp] theorem State.raise_evq (s : State) (c : ResCode) (l : BitVec 5) : (s.raise c l).evq = s.evq := rfl
@[simp] theorem State.raise_emitted (s : State) (c : ResCode) (l : BitVec 5) : (s.raise c l).emitted = s.emitted := rfl
@[simp] theorem State.raise_now (s : State) (c : ResCode) (l : BitVec 5) : (s.raise c l).now = s.now := rfl
@[simp] theorem State.raise_script (s : State) (c : ResCode) (l : BitVec 5) : (s.raise c l).script = s.script := rfl
@[simp] theorem State.raise_cmd_held (s : State) (c : ResCode) (l : BitVec 5) :
    (s.raise c l).cmd.held = s.cmd.held := rfl
@[simp] theorem State.raise_cmd_busy (s : State) (c : ResCode) (l : BitVec 5) : (s.raise c l).cmd.busy = false := rfl
@[simp] theorem State.raise_cmd_cur (s : State) (c : ResCode) (l : BitVec 5) : (s.raise c l).cmd.cur = none := rfl
@[simp] theorem State.raise_cmd_res (s : State) (c : ResCode) (l : BitVec 5) : (s.raise c l).cmd.res = ⟨c, l⟩ := rfl
@[simp] theorem State.raise_cmd_encOps (s : State) (c : ResCode) (l : BitVec 5) : (s.raise c l).cmd.encOps = [] := rfl
@[simp] theorem State.raise_cmd_dwellFrom (s : State) (c : ResCode) (l : BitVec 5) :
    (s.raise c l).cmd.dwellFrom = s.cmd.dwellFrom := rfl
@[simp] theorem State.raise_cmd_trace (s : State) (c : ResCode) (l : BitVec 5) :
    (s.raise c l).cmd.trace = s.cmd.trace := rfl
@[simp] theorem State.raise_cmd_results (s : State) (c : ResCode) (l : BitVec 5) :
    (s.raise c l).cmd.results = s.cmd.results ++ [⟨c, l⟩] := rfl

/-! ### Completion (R92) -/

@[simp] theorem State.complete_cfg (s : State) : (s.complete).cfg = s.cfg := rfl
@[simp] theorem State.complete_init (s : State) : (s.complete).init = s.init := rfl
@[simp] theorem State.complete_lines (s : State) : (s.complete).lines = s.lines := rfl
@[simp] theorem State.complete_fsm (s : State) : (s.complete).fsm = s.fsm := rfl
@[simp] theorem State.complete_src (s : State) : (s.complete).src = s.src := rfl
@[simp] theorem State.complete_inq (s : State) : (s.complete).inq = s.inq := rfl
@[simp] theorem State.complete_evq (s : State) : (s.complete).evq = s.evq := rfl
@[simp] theorem State.complete_emitted (s : State) : (s.complete).emitted = s.emitted := rfl
@[simp] theorem State.complete_now (s : State) : (s.complete).now = s.now := rfl
@[simp] theorem State.complete_script (s : State) : (s.complete).script = s.script := rfl
@[simp] theorem State.complete_cmd_held (s : State) : (s.complete).cmd.held = s.cmd.held := rfl
@[simp] theorem State.complete_cmd_busy (s : State) : (s.complete).cmd.busy = false := rfl
@[simp] theorem State.complete_cmd_cur (s : State) : (s.complete).cmd.cur = none := rfl
@[simp] theorem State.complete_cmd_res (s : State) : (s.complete).cmd.res = ⟨.ok, 0⟩ := rfl
@[simp] theorem State.complete_cmd_encOps (s : State) : (s.complete).cmd.encOps = [] := rfl
@[simp] theorem State.complete_cmd_dwellFrom (s : State) : (s.complete).cmd.dwellFrom = s.cmd.dwellFrom := rfl
@[simp] theorem State.complete_cmd_trace (s : State) : (s.complete).cmd.trace = s.cmd.trace := rfl
@[simp] theorem State.complete_cmd_results (s : State) : (s.complete).cmd.results = s.cmd.results ++ [⟨.ok, 0⟩] := rfl

/-! ### A command begins (R88, R97) -/

@[simp] theorem State.begin_cfg (s : State) (i : Instr) (ops : List Prim) : (s.begin i ops).cfg = s.cfg := rfl
@[simp] theorem State.begin_init (s : State) (i : Instr) (ops : List Prim) : (s.begin i ops).init = s.init := rfl
@[simp] theorem State.begin_lines (s : State) (i : Instr) (ops : List Prim) : (s.begin i ops).lines = s.lines := rfl
@[simp] theorem State.begin_fsm (s : State) (i : Instr) (ops : List Prim) : (s.begin i ops).fsm = s.fsm := rfl
@[simp] theorem State.begin_src (s : State) (i : Instr) (ops : List Prim) : (s.begin i ops).src = s.src := rfl
@[simp] theorem State.begin_inq (s : State) (i : Instr) (ops : List Prim) : (s.begin i ops).inq = s.inq := rfl
@[simp] theorem State.begin_evq (s : State) (i : Instr) (ops : List Prim) : (s.begin i ops).evq = s.evq := rfl
@[simp] theorem State.begin_emitted (s : State) (i : Instr) (ops : List Prim) :
    (s.begin i ops).emitted = s.emitted := rfl
@[simp] theorem State.begin_now (s : State) (i : Instr) (ops : List Prim) : (s.begin i ops).now = s.now := rfl
@[simp] theorem State.begin_script (s : State) (i : Instr) (ops : List Prim) : (s.begin i ops).script = s.script := rfl
@[simp] theorem State.begin_cmd_held (s : State) (i : Instr) (ops : List Prim) :
    (s.begin i ops).cmd.held = s.cmd.held := rfl
@[simp] theorem State.begin_cmd_busy (s : State) (i : Instr) (ops : List Prim) : (s.begin i ops).cmd.busy = true := rfl
@[simp] theorem State.begin_cmd_cur (s : State) (i : Instr) (ops : List Prim) : (s.begin i ops).cmd.cur = some i := rfl
@[simp] theorem State.begin_cmd_res (s : State) (i : Instr) (ops : List Prim) :
    (s.begin i ops).cmd.res = s.cmd.res := rfl
@[simp] theorem State.begin_cmd_encOps (s : State) (i : Instr) (ops : List Prim) :
    (s.begin i ops).cmd.encOps = ops := rfl
@[simp] theorem State.begin_cmd_dwellFrom (s : State) (i : Instr) (ops : List Prim) :
    (s.begin i ops).cmd.dwellFrom = s.now := rfl
@[simp] theorem State.begin_cmd_trace (s : State) (i : Instr) (ops : List Prim) :
    (s.begin i ops).cmd.trace = s.cmd.trace := rfl
@[simp] theorem State.begin_cmd_results (s : State) (i : Instr) (ops : List Prim) :
    (s.begin i ops).cmd.results = s.cmd.results := rfl

/-! ### More primitives (R83 to R85) -/

@[simp] theorem State.appendOps_cfg (s : State) (ops : List Prim) : (s.appendOps ops).cfg = s.cfg := rfl
@[simp] theorem State.appendOps_init (s : State) (ops : List Prim) : (s.appendOps ops).init = s.init := rfl
@[simp] theorem State.appendOps_lines (s : State) (ops : List Prim) : (s.appendOps ops).lines = s.lines := rfl
@[simp] theorem State.appendOps_fsm (s : State) (ops : List Prim) : (s.appendOps ops).fsm = s.fsm := rfl
@[simp] theorem State.appendOps_src (s : State) (ops : List Prim) : (s.appendOps ops).src = s.src := rfl
@[simp] theorem State.appendOps_inq (s : State) (ops : List Prim) : (s.appendOps ops).inq = s.inq := rfl
@[simp] theorem State.appendOps_evq (s : State) (ops : List Prim) : (s.appendOps ops).evq = s.evq := rfl
@[simp] theorem State.appendOps_emitted (s : State) (ops : List Prim) : (s.appendOps ops).emitted = s.emitted := rfl
@[simp] theorem State.appendOps_now (s : State) (ops : List Prim) : (s.appendOps ops).now = s.now := rfl
@[simp] theorem State.appendOps_script (s : State) (ops : List Prim) : (s.appendOps ops).script = s.script := rfl
@[simp] theorem State.appendOps_cmd_held (s : State) (ops : List Prim) : (s.appendOps ops).cmd.held = s.cmd.held := rfl
@[simp] theorem State.appendOps_cmd_busy (s : State) (ops : List Prim) : (s.appendOps ops).cmd.busy = s.cmd.busy := rfl
@[simp] theorem State.appendOps_cmd_cur (s : State) (ops : List Prim) : (s.appendOps ops).cmd.cur = s.cmd.cur := rfl
@[simp] theorem State.appendOps_cmd_res (s : State) (ops : List Prim) : (s.appendOps ops).cmd.res = s.cmd.res := rfl
@[simp] theorem State.appendOps_cmd_encOps (s : State) (ops : List Prim) :
    (s.appendOps ops).cmd.encOps = s.cmd.encOps ++ ops := rfl
@[simp] theorem State.appendOps_cmd_dwellFrom (s : State) (ops : List Prim) :
    (s.appendOps ops).cmd.dwellFrom = s.cmd.dwellFrom := rfl
@[simp] theorem State.appendOps_cmd_trace (s : State) (ops : List Prim) :
    (s.appendOps ops).cmd.trace = s.cmd.trace := rfl
@[simp] theorem State.appendOps_cmd_results (s : State) (ops : List Prim) :
    (s.appendOps ops).cmd.results = s.cmd.results := rfl

/-! ### The word the port holds (R142) -/

@[simp] theorem State.hold_cfg (s : State) (cw : CmdWord) : (s.hold cw).cfg = s.cfg := rfl
@[simp] theorem State.hold_init (s : State) (cw : CmdWord) : (s.hold cw).init = s.init := rfl
@[simp] theorem State.hold_lines (s : State) (cw : CmdWord) : (s.hold cw).lines = s.lines := rfl
@[simp] theorem State.hold_fsm (s : State) (cw : CmdWord) : (s.hold cw).fsm = s.fsm := rfl
@[simp] theorem State.hold_src (s : State) (cw : CmdWord) : (s.hold cw).src = s.src := rfl
@[simp] theorem State.hold_inq (s : State) (cw : CmdWord) : (s.hold cw).inq = s.inq := rfl
@[simp] theorem State.hold_evq (s : State) (cw : CmdWord) : (s.hold cw).evq = s.evq := rfl
@[simp] theorem State.hold_emitted (s : State) (cw : CmdWord) : (s.hold cw).emitted = s.emitted := rfl
@[simp] theorem State.hold_now (s : State) (cw : CmdWord) : (s.hold cw).now = s.now := rfl
@[simp] theorem State.hold_script (s : State) (cw : CmdWord) : (s.hold cw).script = s.script := rfl
@[simp] theorem State.hold_cmd_held (s : State) (cw : CmdWord) : (s.hold cw).cmd.held = some (s.cmd.held.getD cw) := rfl
@[simp] theorem State.hold_cmd_busy (s : State) (cw : CmdWord) : (s.hold cw).cmd.busy = s.cmd.busy := rfl
@[simp] theorem State.hold_cmd_cur (s : State) (cw : CmdWord) : (s.hold cw).cmd.cur = s.cmd.cur := rfl
@[simp] theorem State.hold_cmd_res (s : State) (cw : CmdWord) : (s.hold cw).cmd.res = s.cmd.res := rfl
@[simp] theorem State.hold_cmd_encOps (s : State) (cw : CmdWord) : (s.hold cw).cmd.encOps = s.cmd.encOps := rfl
@[simp] theorem State.hold_cmd_dwellFrom (s : State) (cw : CmdWord) : (s.hold cw).cmd.dwellFrom = s.cmd.dwellFrom := rfl
@[simp] theorem State.hold_cmd_trace (s : State) (cw : CmdWord) : (s.hold cw).cmd.trace = s.cmd.trace := rfl
@[simp] theorem State.hold_cmd_results (s : State) (cw : CmdWord) : (s.hold cw).cmd.results = s.cmd.results := rfl
@[simp] theorem State.unhold_cfg (s : State) : (s.unhold).cfg = s.cfg := rfl
@[simp] theorem State.unhold_init (s : State) : (s.unhold).init = s.init := rfl
@[simp] theorem State.unhold_lines (s : State) : (s.unhold).lines = s.lines := rfl
@[simp] theorem State.unhold_fsm (s : State) : (s.unhold).fsm = s.fsm := rfl
@[simp] theorem State.unhold_src (s : State) : (s.unhold).src = s.src := rfl
@[simp] theorem State.unhold_inq (s : State) : (s.unhold).inq = s.inq := rfl
@[simp] theorem State.unhold_evq (s : State) : (s.unhold).evq = s.evq := rfl
@[simp] theorem State.unhold_emitted (s : State) : (s.unhold).emitted = s.emitted := rfl
@[simp] theorem State.unhold_now (s : State) : (s.unhold).now = s.now := rfl
@[simp] theorem State.unhold_script (s : State) : (s.unhold).script = s.script := rfl
@[simp] theorem State.unhold_cmd_held (s : State) : (s.unhold).cmd.held = none := rfl
@[simp] theorem State.unhold_cmd_busy (s : State) : (s.unhold).cmd.busy = s.cmd.busy := rfl
@[simp] theorem State.unhold_cmd_cur (s : State) : (s.unhold).cmd.cur = s.cmd.cur := rfl
@[simp] theorem State.unhold_cmd_res (s : State) : (s.unhold).cmd.res = s.cmd.res := rfl
@[simp] theorem State.unhold_cmd_encOps (s : State) : (s.unhold).cmd.encOps = s.cmd.encOps := rfl
@[simp] theorem State.unhold_cmd_dwellFrom (s : State) : (s.unhold).cmd.dwellFrom = s.cmd.dwellFrom := rfl
@[simp] theorem State.unhold_cmd_trace (s : State) : (s.unhold).cmd.trace = s.cmd.trace := rfl
@[simp] theorem State.unhold_cmd_results (s : State) : (s.unhold).cmd.results = s.cmd.results := rfl

/-! ### Events and phases (R14, R103 to R112) -/

@[simp] theorem State.emit_cfg (s : State) (e : Event) : (s.emit e).cfg = s.cfg := rfl
@[simp] theorem State.emit_init (s : State) (e : Event) : (s.emit e).init = s.init := rfl
@[simp] theorem State.emit_lines (s : State) (e : Event) : (s.emit e).lines = s.lines := rfl
@[simp] theorem State.emit_cmd (s : State) (e : Event) : (s.emit e).cmd = s.cmd := rfl
@[simp] theorem State.emit_fsm (s : State) (e : Event) : (s.emit e).fsm = s.fsm := rfl
@[simp] theorem State.emit_src (s : State) (e : Event) : (s.emit e).src = s.src := rfl
@[simp] theorem State.emit_inq (s : State) (e : Event) : (s.emit e).inq = s.inq := rfl
@[simp] theorem State.emit_evq (s : State) (e : Event) : (s.emit e).evq = s.evq ++ [e] := rfl
@[simp] theorem State.emit_emitted (s : State) (e : Event) : (s.emit e).emitted = s.emitted ++ [e] := rfl
@[simp] theorem State.emit_now (s : State) (e : Event) : (s.emit e).now = s.now := rfl
@[simp] theorem State.emit_script (s : State) (e : Event) : (s.emit e).script = s.script := rfl
@[simp] theorem State.setPhase_cfg (s : State) (p : Phase) (d : Option Time) : (s.setPhase p d).cfg = s.cfg := rfl
@[simp] theorem State.setPhase_init (s : State) (p : Phase) (d : Option Time) : (s.setPhase p d).init = s.init := rfl
@[simp] theorem State.setPhase_lines (s : State) (p : Phase) (d : Option Time) : (s.setPhase p d).lines = s.lines := rfl
@[simp] theorem State.setPhase_cmd (s : State) (p : Phase) (d : Option Time) : (s.setPhase p d).cmd = s.cmd := rfl
@[simp] theorem State.setPhase_fsm (s : State) (p : Phase) (d : Option Time) :
    (s.setPhase p d).fsm = { s.fsm with phase := p, deadline := d } := rfl
@[simp] theorem State.setPhase_src (s : State) (p : Phase) (d : Option Time) : (s.setPhase p d).src = s.src := rfl
@[simp] theorem State.setPhase_inq (s : State) (p : Phase) (d : Option Time) : (s.setPhase p d).inq = s.inq := rfl
@[simp] theorem State.setPhase_evq (s : State) (p : Phase) (d : Option Time) : (s.setPhase p d).evq = s.evq := rfl
@[simp] theorem State.setPhase_emitted (s : State) (p : Phase) (d : Option Time) :
    (s.setPhase p d).emitted = s.emitted := rfl
@[simp] theorem State.setPhase_now (s : State) (p : Phase) (d : Option Time) : (s.setPhase p d).now = s.now := rfl
@[simp] theorem State.setPhase_script (s : State) (p : Phase) (d : Option Time) :
    (s.setPhase p d).script = s.script := rfl
@[simp] theorem State.endSequence_cfg (s : State) (e : Event) (k : EndKind) : (s.endSequence e k).cfg = s.cfg := rfl
@[simp] theorem State.endSequence_init (s : State) (e : Event) (k : EndKind) : (s.endSequence e k).init = s.init := rfl
@[simp] theorem State.endSequence_lines (s : State) (e : Event) (k : EndKind) :
    (s.endSequence e k).lines = s.lines := rfl
@[simp] theorem State.endSequence_cmd (s : State) (e : Event) (k : EndKind) : (s.endSequence e k).cmd = s.cmd := rfl
@[simp] theorem State.endSequence_fsm (s : State) (e : Event) (k : EndKind) :
    (s.endSequence e k).fsm = ⟨.ended, none, some k⟩ := rfl
@[simp] theorem State.endSequence_src (s : State) (e : Event) (k : EndKind) : (s.endSequence e k).src = s.src := rfl
@[simp] theorem State.endSequence_inq (s : State) (e : Event) (k : EndKind) : (s.endSequence e k).inq = s.inq := rfl
@[simp] theorem State.endSequence_evq (s : State) (e : Event) (k : EndKind) :
    (s.endSequence e k).evq = s.evq ++ [e] := rfl
@[simp] theorem State.endSequence_emitted (s : State) (e : Event) (k : EndKind) :
    (s.endSequence e k).emitted = s.emitted ++ [e] := rfl
@[simp] theorem State.endSequence_now (s : State) (e : Event) (k : EndKind) : (s.endSequence e k).now = s.now := rfl
@[simp] theorem State.endSequence_script (s : State) (e : Event) (k : EndKind) :
    (s.endSequence e k).script = s.script := rfl

/-! ### The trigger queue and its source (R20, R29, R116, R117) -/

@[simp] theorem State.enqueue_cfg (s : State) (c : TrigCode) (t : Time) : (s.enqueue c t).cfg = s.cfg := rfl
@[simp] theorem State.enqueue_init (s : State) (c : TrigCode) (t : Time) : (s.enqueue c t).init = s.init := rfl
@[simp] theorem State.enqueue_lines (s : State) (c : TrigCode) (t : Time) : (s.enqueue c t).lines = s.lines := rfl
@[simp] theorem State.enqueue_cmd (s : State) (c : TrigCode) (t : Time) : (s.enqueue c t).cmd = s.cmd := rfl
@[simp] theorem State.enqueue_fsm (s : State) (c : TrigCode) (t : Time) : (s.enqueue c t).fsm = s.fsm := rfl
@[simp] theorem State.enqueue_src (s : State) (c : TrigCode) (t : Time) : (s.enqueue c t).src = s.src := rfl
@[simp] theorem State.enqueue_inq (s : State) (c : TrigCode) (t : Time) : (s.enqueue c t).inq = s.inq ++ [(c, t)] := rfl
@[simp] theorem State.enqueue_evq (s : State) (c : TrigCode) (t : Time) : (s.enqueue c t).evq = s.evq := rfl
@[simp] theorem State.enqueue_emitted (s : State) (c : TrigCode) (t : Time) : (s.enqueue c t).emitted = s.emitted := rfl
@[simp] theorem State.enqueue_now (s : State) (c : TrigCode) (t : Time) : (s.enqueue c t).now = s.now := rfl
@[simp] theorem State.enqueue_script (s : State) (c : TrigCode) (t : Time) : (s.enqueue c t).script = s.script := rfl
@[simp] theorem State.takeEdge_cfg (s : State) : (s.takeEdge).cfg = s.cfg := rfl
@[simp] theorem State.takeEdge_init (s : State) : (s.takeEdge).init = s.init := rfl
@[simp] theorem State.takeEdge_lines (s : State) : (s.takeEdge).lines = s.lines := rfl
@[simp] theorem State.takeEdge_cmd (s : State) : (s.takeEdge).cmd = s.cmd := rfl
@[simp] theorem State.takeEdge_fsm (s : State) : (s.takeEdge).fsm = s.fsm := rfl
@[simp] theorem State.takeEdge_src (s : State) :
    (s.takeEdge).src = { s.src with pendingEdges := s.src.pendingEdges - 1 } := rfl
@[simp] theorem State.takeEdge_inq (s : State) : (s.takeEdge).inq = s.inq := rfl
@[simp] theorem State.takeEdge_evq (s : State) : (s.takeEdge).evq = s.evq := rfl
@[simp] theorem State.takeEdge_emitted (s : State) : (s.takeEdge).emitted = s.emitted := rfl
@[simp] theorem State.takeEdge_now (s : State) : (s.takeEdge).now = s.now := rfl
@[simp] theorem State.takeEdge_script (s : State) : (s.takeEdge).script = s.script := rfl
@[simp] theorem State.takeSample_cfg (s : State) : (s.takeSample).cfg = s.cfg := rfl
@[simp] theorem State.takeSample_init (s : State) : (s.takeSample).init = s.init := rfl
@[simp] theorem State.takeSample_lines (s : State) : (s.takeSample).lines = s.lines := rfl
@[simp] theorem State.takeSample_cmd (s : State) : (s.takeSample).cmd = s.cmd := rfl
@[simp] theorem State.takeSample_fsm (s : State) : (s.takeSample).fsm = s.fsm := rfl
@[simp] theorem State.takeSample_src (s : State) :
    (s.takeSample).src = { s.src with prev := some s.src.btnLvl, lastSample := some s.now } := rfl
@[simp] theorem State.takeSample_inq (s : State) : (s.takeSample).inq = s.inq := rfl
@[simp] theorem State.takeSample_evq (s : State) : (s.takeSample).evq = s.evq := rfl
@[simp] theorem State.takeSample_emitted (s : State) : (s.takeSample).emitted = s.emitted := rfl
@[simp] theorem State.takeSample_now (s : State) : (s.takeSample).now = s.now := rfl
@[simp] theorem State.takeSample_script (s : State) : (s.takeSample).script = s.script := rfl
@[simp] theorem State.moveButton_cfg (s : State) (v : Bool) : (s.moveButton v).cfg = s.cfg := rfl
@[simp] theorem State.moveButton_init (s : State) (v : Bool) : (s.moveButton v).init = s.init := rfl
@[simp] theorem State.moveButton_lines (s : State) (v : Bool) : (s.moveButton v).lines = s.lines := rfl
@[simp] theorem State.moveButton_cmd (s : State) (v : Bool) : (s.moveButton v).cmd = s.cmd := rfl
@[simp] theorem State.moveButton_fsm (s : State) (v : Bool) : (s.moveButton v).fsm = s.fsm := rfl
@[simp] theorem State.moveButton_inq (s : State) (v : Bool) : (s.moveButton v).inq = s.inq := rfl
@[simp] theorem State.moveButton_evq (s : State) (v : Bool) : (s.moveButton v).evq = s.evq := rfl
@[simp] theorem State.moveButton_emitted (s : State) (v : Bool) : (s.moveButton v).emitted = s.emitted := rfl
@[simp] theorem State.moveButton_now (s : State) (v : Bool) : (s.moveButton v).now = s.now := rfl
@[simp] theorem State.moveButton_script (s : State) (v : Bool) : (s.moveButton v).script = s.script := rfl
@[simp] theorem State.moveButton_src_btnLvl (s : State) (v : Bool) : (s.moveButton v).src.btnLvl = v := rfl
@[simp] theorem State.moveButton_src_prev (s : State) (v : Bool) : (s.moveButton v).src.prev = s.src.prev := rfl
@[simp] theorem State.moveButton_src_lastSample (s : State) (v : Bool) :
    (s.moveButton v).src.lastSample = s.src.lastSample := rfl
@[simp] theorem State.popEvent_cfg (s : State) : (s.popEvent).cfg = s.cfg := rfl
@[simp] theorem State.popEvent_init (s : State) : (s.popEvent).init = s.init := rfl
@[simp] theorem State.popEvent_lines (s : State) : (s.popEvent).lines = s.lines := rfl
@[simp] theorem State.popEvent_cmd (s : State) : (s.popEvent).cmd = s.cmd := rfl
@[simp] theorem State.popEvent_fsm (s : State) : (s.popEvent).fsm = s.fsm := rfl
@[simp] theorem State.popEvent_src (s : State) : (s.popEvent).src = s.src := rfl
@[simp] theorem State.popEvent_inq (s : State) : (s.popEvent).inq = s.inq := rfl
@[simp] theorem State.popEvent_evq (s : State) : (s.popEvent).evq = s.evq.tail := rfl
@[simp] theorem State.popEvent_emitted (s : State) : (s.popEvent).emitted = s.emitted := rfl
@[simp] theorem State.popEvent_now (s : State) : (s.popEvent).now = s.now := rfl
@[simp] theorem State.popEvent_script (s : State) : (s.popEvent).script = s.script := rfl

/-! ### Levels of lines (R19) -/

@[simp] theorem Lines.setLevel_fanPort (L : Lines) (l : OutLine) (v : Level) :
    (L.setLevel l v).fanPort = L.fanPort := by cases l <;> rfl
@[simp] theorem Lines.setLevel_dataPort (L : Lines) (l : OutLine) (v : Level) :
    (L.setLevel l v).dataPort = L.dataPort := by cases l <;> rfl
@[simp] theorem Lines.setLevel_clkPort (L : Lines) (l : OutLine) (v : Level) :
    (L.setLevel l v).clkPort = L.clkPort := by cases l <;> rfl
@[simp] theorem Lines.setLevel_buttonPort (L : Lines) (l : OutLine) (v : Level) :
    (L.setLevel l v).buttonPort = L.buttonPort := by cases l <;> rfl
@[simp] theorem Lines.setLevel_level (L : Lines) (l k : OutLine) (v : Level) :
    (L.setLevel l v).level k = if l = k then v else L.level k := by cases l <;> cases k <;> rfl

@[simp] theorem Block.under_cfg (b : Block) (c : Cfg) : (b.under c).cfg = c := rfl
@[simp] theorem Block.under_toBlock (b : Block) (c : Cfg) : (b.under c).toBlock = b := rfl
@[simp] theorem State.toBlock_under (s : State) : s.toBlock.under s.cfg = s := rfl

end Sys2Proof.Machine
end

