-- ==== Sys2Proof/Laws/Ops.lean ====
section
/-!
SUPPORT. What each shared operation can do, said once: the lemmas later proofs cite instead of unfolding it.
-/

namespace Sys2Proof.Machine

/-! ### Decoding -/

/-- A decoded command word is a host command (R58). -/
theorem decodeCommand_isCommand {cw : CmdWord} {i : Instr} (h : decodeCommand cw = .ok i) : i.isCommand = true := by
  unfold decodeCommand at h
  split at h
  · cases h; rfl
  · split at h
    · cases h; rfl
    · cases h

/-- A queueable code decodes to an observation or to a terminal trigger (R67). -/
theorem decodeTrigger_of_queueable {c : TrigCode} (hq : queueable c = true) (t : Time) :
    (∃ v, decodeTrigger c t = .ok (.obs v t) ∧ terminalCode c = false ∧ c = obsCode v) ∨
    (decodeTrigger c t = .ok (.srcEnd t) ∧ c = srcEndCode) ∨
    (decodeTrigger c t = .ok (.timerFail t) ∧ c = timerFailCode) := by
  have key : c = obsCode false ∨ c = obsCode true ∨ c = srcEndCode ∨ c = timerFailCode := by
    revert hq; revert c; decide
  rcases key with rfl | rfl | rfl | rfl
  · exact .inl ⟨false, rfl, rfl, rfl⟩
  · exact .inl ⟨true, rfl, rfl, rfl⟩
  · exact .inr (.inl ⟨rfl, rfl⟩)
  · exact .inr (.inr ⟨rfl, rfl⟩)

/-! ### Commands -/

/-- What presenting a command can do (R88, R97, R122, R142). -/
theorem State.startCommand_cases {s t : State} {i : Instr} {ops : List Prim} (h : s.startCommand i ops = .next t) :
    (s.cmd.busy = true ∧ t = s.hold (commandWord i)) ∨
    (s.cmd.busy = false ∧ s.init = .exportFailed ∧ t = s.raise .lineExportFailure 0) ∨
    (s.cmd.busy = false ∧ s.init = .ready ∧ t = s.begin i ops) := by
  unfold State.startCommand at h
  cases hb : s.cmd.busy <;> cases hi : s.init <;> simp_all

/-- What loading a wire frame can do (log 7). -/
theorem State.emitFrame_cases {s t : State} {i : Instr} {ops : List Prim} (h : s.emitFrame i ops = .next t) :
    (s.cmd.busy = true ∧ t = s.appendOps ops) ∨
    (s.cmd.busy = false ∧ s.init = .exportFailed ∧ t = s.raise .lineExportFailure 0) ∨
    (s.cmd.busy = false ∧ s.init = .ready ∧ t = s.begin i ops) := by
  unfold State.emitFrame at h
  cases hb : s.cmd.busy <;> cases hi : s.init <;> simp_all

/-- A host command runs as the acceptance of its primitives (R88, R97). -/
theorem exec_command (s : State) {i : Instr} (hc : i.isCommand = true) :
    exec i s = s.startCommand i (commandOps s.cfg i) := by
  cases i <;> first | rfl | cases hc

/-- What accepting a word on a free port can do (R125). -/
theorem State.acceptWord_cases {s t : State} {cw : CmdWord} (hb : s.cmd.busy = false) (h : s.acceptWord cw = .next t) :
    (s.init = .exportFailed ∧ t = s.raise .lineExportFailure 0) ∨
    (s.init = .ready ∧ t = s.raise .illegalCommand 0) ∨
    (s.init = .ready ∧ ∃ i, decodeCommand cw = .ok i ∧ i.isCommand = true ∧ t = s.begin i (commandOps s.cfg i)) := by
  unfold State.acceptWord at h
  cases hi : s.init
  case exportFailed => simp_all
  case ready =>
    simp only [hi, reduceCtorEq, if_false] at h
    split at h
    · exact .inr (.inl ⟨rfl, by simpa using h.symm⟩)
    · next i hd =>
      have hc := decodeCommand_isCommand hd
      rw [exec_command s hc] at h
      rcases State.startCommand_cases h with ⟨hb', -⟩ | ⟨-, hi', -⟩ | ⟨-, -, rfl⟩
      · simp_all
      · simp_all
      · exact .inr (.inr ⟨rfl, i, hd, hc, rfl⟩)

/-! ### The executor -/

/-- What the executor's step can do (R89): nothing, one dwell, one write that went well, or a failed write. -/
theorem State.execStep_cases (s : State) (a : Answer) :
    (s.execStep a = s) ∨
    (s.cmd.busy = true ∧ ∃ rest, s.cmd.encOps = .d :: rest ∧ s.cmd.dwellFrom + s.cfg.dwellNs ≤ s.now ∧
      s.execStep a = s.dwellDone.finishPrim rest) ∨
    (s.cmd.busy = true ∧ ∃ l v rest, s.cmd.encOps = .w l v :: rest ∧ a = .ok ∧
      s.execStep a = (s.lineWrite l v .ok).finishPrim rest) ∨
    (s.cmd.busy = true ∧ ∃ l v rest, s.cmd.encOps = .w l v :: rest ∧ a = .fail ∧
      s.execStep a = (s.lineWrite l v .fail).raise .lineWriteFailure l.number) := by
  unfold State.execStep
  cases hb : s.cmd.busy
  case false => exact .inl rfl
  case true =>
    cases ho : s.cmd.encOps with
    | nil => exact .inl (by simp)
    | cons p rest =>
      cases p with
      | d =>
        by_cases hd : s.cmd.dwellFrom + s.cfg.dwellNs ≤ s.now
        · exact .inr (.inl ⟨rfl, rest, rfl, hd, by simp [State.dwellOver, hd]⟩)
        · exact .inl (by simp [State.dwellOver, hd])
      | w l v =>
        cases a
        · exact .inr (.inr (.inl ⟨rfl, l, v, rest, rfl, rfl, by simp⟩))
        · exact .inr (.inr (.inr ⟨rfl, l, v, rest, rfl, rfl, by simp⟩))

/-- After a primitive, the rest remains. -/
theorem State.finishPrim_cons (s : State) (p : Prim) (rest : List Prim) :
    s.finishPrim (p :: rest) = { s with cmd := { s.cmd with encOps := p :: rest } } := rfl

/-- After the last primitive, the command completes (R92). -/
theorem State.finishPrim_nil (s : State) : s.finishPrim [] = s.complete := rfl

/-- The executor reaches only the lines and the command path. -/
theorem State.execStep_frame (s : State) (a : Answer) :
    s.execStep a = { s with lines := (s.execStep a).lines, cmd := (s.execStep a).cmd } := by
  rcases s.execStep_cases a with h | ⟨-, rest, -, -, h⟩ | ⟨-, l, v, rest, -, -, h⟩ | ⟨-, l, v, rest, -, -, h⟩ <;>
    rw [h] <;> first | rfl | (cases rest <;> rfl)

/-! ### The button state machine -/

/-- What an observation can do (R105 to R110). -/
theorem State.observe_cases (s : State) (v : Bool) (t : Time) :
    s.observe v t = s ∨
    (s.fsm.phase = .idle ∧ s.observe v t = (s.emit .press).setPhase .pressed (some (t + s.cfg.holdTimeNs))) ∨
    (s.fsm.phase = .pressed ∧ s.observe v t = (s.emit .release).setPhase .idle none) ∨
    (s.fsm.phase = .held ∧ s.observe v t = (s.emit .release).setPhase .idle s.fsm.deadline) := by
  unfold State.observe
  cases hp : s.fsm.phase <;> cases v <;> simp

/-- What a trigger that stands in `inq` does when its code may stand there. -/
theorem exec_queued {s t : State} {c : TrigCode} {τ : Time} {i : Instr} (hq : queueable c = true)
    (hd : decodeTrigger c τ = .ok i) (h : exec i s = .next t) :
    (s.takesTrigger τ = false ∧ t = s) ∨
    (s.takesTrigger τ = true ∧ ((∃ v, c = obsCode v ∧ t = s.observe v τ) ∨
      (c = srcEndCode ∧ t = s.endSequence .seqEnd .sourceEnd) ∨
      (c = timerFailCode ∧ t = s.endSequence .timerFailure .timerFailure))) := by
  rcases decodeTrigger_of_queueable hq τ with ⟨v, h', -, hc⟩ | ⟨h', hc⟩ | ⟨h', hc⟩ <;>
    (rw [h'] at hd; cases hd; cases ht : s.takesTrigger τ) <;>
    simp only [exec, execObs, execSrcEnd, execTimerFail, ht, if_true, Bool.false_eq_true, if_false,
      Host.Outcome.next.injEq] at h <;> subst h
  · exact .inl ⟨rfl, rfl⟩
  · exact .inr ⟨rfl, .inl ⟨v, hc, rfl⟩⟩
  · exact .inl ⟨rfl, rfl⟩
  · exact .inr ⟨rfl, .inr (.inl ⟨hc, rfl⟩)⟩
  · exact .inl ⟨rfl, rfl⟩
  · exact .inr ⟨rfl, .inr (.inr ⟨hc, rfl⟩)⟩

/-- What the state machine's step can do (R103). -/
theorem State.fsmStep_cases {s t : State} (h : s.fsmStep = .next t) :
    t = s ∨
    (s.fsmLive = true ∧ s.deadlineReady = true ∧ t = (s.emit .hold).setPhase .held none) ∨
    (s.fsmLive = true ∧ s.deadlineReady = false ∧ ∃ c τ rest, s.inq = (c, τ) :: rest ∧ queueable c = true ∧
      ((∃ v, c = obsCode v ∧ t = State.observe { s with inq := rest } v τ) ∨
        (c = srcEndCode ∧ t = State.endSequence { s with inq := rest } .seqEnd .sourceEnd) ∨
        (c = timerFailCode ∧ t = State.endSequence { s with inq := rest } .timerFailure .timerFailure))) := by
  unfold State.fsmStep at h
  cases hl : s.fsmLive
  case false => exact .inl (by simpa [hl] using h.symm)
  case true =>
    cases hr : s.deadlineReady
    case true =>
      simp only [hl, hr, if_true, exec, execDeadline, State.takesDeadline, Bool.and_true] at h
      exact .inr (.inl ⟨rfl, rfl, by simpa using h.symm⟩)
    case false =>
      simp only [hl, hr, if_true, Bool.false_eq_true, if_false] at h
      unfold State.processHead at h
      cases hq : s.inq with
      | nil => exact .inl (by simpa [hq] using h.symm)
      | cons e rest =>
        obtain ⟨c, τ⟩ := e
        simp only [hq] at h
        split at h
        · next hc =>
          split at h
          · cases h
          · next i hd =>
            refine .inr (.inr ⟨rfl, rfl, c, τ, rest, rfl, hc, ?_⟩)
            have hready : State.takesTrigger { s with inq := rest } τ = true := by
              have : s.deadlineBy τ = false := by simpa [State.deadlineReady, hq] using hr
              show (s.fsmLive && !s.deadlineBy τ) = true
              rw [hl, this]; rfl
            rcases exec_queued hc hd h with ⟨hn, -⟩ | ⟨-, hs⟩
            · simp [hready] at hn
            · exact hs
        · cases h

/-! ### The trigger queue and its source -/

/-- What an append needs, and does (R29, R119). -/
theorem State.appendTrigger_next {s t : State} {c : TrigCode} {τ : Time} (h : s.appendTrigger c τ = .next t) :
    queueable c = true ∧ τ = s.now ∧ s.terminalSeen = false ∧ s.inqFull = false ∧ t = s.enqueue c τ := by
  unfold State.appendTrigger at h
  split at h
  · cases h
  · split at h
    · cases h
    · split at h
      · cases h
      · split at h
        · cases h
        · simp_all

/-- What delivering an edge can do (R116). -/
theorem State.deliverEdge_cases {s t : State} (h : s.deliverEdge = .next t) :
    s.cfg.sourceMode = .edge ∧ (t = s ∨
      (0 < s.src.pendingEdges ∧ s.takeEdge.appendTrigger (obsCode s.src.btnLvl) s.now = .next t)) := by
  unfold State.deliverEdge at h
  cases hm : s.cfg.sourceMode
  case poll => simp [hm] at h
  case edge =>
    simp only [hm, reduceCtorEq, if_false] at h
    split at h
    · exact ⟨rfl, .inl (by simpa using h.symm)⟩
    · next hp => exact ⟨rfl, .inr ⟨Nat.pos_of_ne_zero hp, h⟩⟩

/-- What a sample can do (R117). -/
theorem State.pollSample_cases {s t : State} (h : s.pollSample = .next t) :
    s.cfg.sourceMode = .poll ∧ (t = s ∨ t = s.takeSample ∨
      s.takeSample.appendTrigger (obsCode s.src.btnLvl) s.now = .next t) := by
  unfold State.pollSample at h
  cases hm : s.cfg.sourceMode
  case edge => simp [hm] at h
  case poll =>
    simp only [hm, reduceCtorEq, if_false] at h
    split at h
    · exact ⟨rfl, .inl (by simpa using h.symm)⟩
    · split at h
      · exact ⟨rfl, .inr (.inl (by simpa using h.symm))⟩
      · exact ⟨rfl, .inr (.inr h)⟩

/-! ### Construction -/

/-- What a construction needs, and does, whatever the exports answer (R8, R144, R146). -/
theorem State.construct_next {s t : State} {c : Cfg} {a : ExportAnswers} (h : s.construct c a = .next t) :
    c.legal = true ∧ t =
      { s with
        cfg := c
        init := (exportAll c a.inOrder Lines.unexported).2
        lines := (exportAll c a.inOrder Lines.unexported).1
        cmd := ⟨none, false, none, ⟨.ok, 0⟩, [], s.now, [], []⟩
        fsm := ⟨.idle, none, none⟩
        src := ⟨s.src.btnLvl, none, none, 0⟩
        inq := [], evq := [], emitted := [] } := by
  unfold State.construct at h
  split at h
  · next hc => exact ⟨hc, (Host.Outcome.next.inj h).symm⟩
  · cases h

/-- The lines a construction leaves (R145, R146). -/
theorem exportAll_cases (c : Cfg) (a : ExportAnswers) :
    exportAll c a.inOrder Lines.unexported =
      (⟨.high, .low, .low, some ⟨.output, .none⟩, some ⟨.output, .none⟩, some ⟨.output, .none⟩,
        some ⟨.input, buttonEdges c⟩⟩, .ready) ∨
    (∃ p q r, exportAll c a.inOrder Lines.unexported =
      (⟨.unknown, .unknown, .unknown, p, q, r, none⟩, .exportFailed)) := by
  obtain ⟨f, d, k, b⟩ := a
  cases f <;> cases d <;> cases k <;> cases b <;>
    simp [exportAll, ExportAnswers.inOrder, Lines.exportLine, Lines.unexported, Lines.unspecified]

/-! ### Outcomes -/

@[simp] theorem mapNext_next {α β : Type} (f : α → β) (a : α) : mapNext f (.next a) = .next (f a) := rfl
@[simp] theorem mapNext_fault {α β : Type} (f : α → β) (r : Fault) : mapNext f (.fault r) = .fault r := rfl
@[simp] theorem mapNext_refused {α β : Type} (f : α → β) (r : Refusal) : mapNext f (.refused r) = .refused r := rfl

/-! ### The port -/

/-- What the host's issue step can do (R125, R142). -/
theorem State.issueWord_cases {s t : State} {cw : CmdWord} (h : s.issueWord cw = .next t) :
    t = s ∨ (s.cmd.busy = false ∧ s.cmd.held = none ∧ s.acceptWord cw = .next t) := by
  unfold State.issueWord at h
  split at h
  · exact .inl (by simpa using h.symm)
  · next hn =>
    obtain ⟨hb, hh⟩ := not_or.mp hn
    exact .inr ⟨by simpa using hb, not_not.mp hh, h⟩

/-- What presenting a word can do (R125, R142). -/
theorem State.presentWord_cases {s t : State} {cw : CmdWord} (h : s.presentWord cw = .next t) :
    (s.cmd.busy = true ∧ t = s.hold cw) ∨ s.issueWord cw = .next t := by
  unfold State.presentWord at h
  split at h
  · next hb => exact .inl ⟨hb, by simpa using h.symm⟩
  · exact .inr h

/-- What accepting the held word can do (R142). -/
theorem State.acceptHeld_cases {s t : State} (h : s.acceptHeld = .next t) :
    t = s ∨ (s.cmd.busy = false ∧ ∃ cw, s.cmd.held = some cw ∧ s.unhold.acceptWord cw = .next t) := by
  unfold State.acceptHeld at h
  cases hh : s.cmd.held
  case none => exact .inl (by simpa [hh] using h.symm)
  case some cw =>
    cases hb : s.cmd.busy
    · exact .inr ⟨rfl, cw, rfl, by simpa [hh, hb] using h⟩
    · exact .inl (by simpa [hh, hb] using h.symm)

end Sys2Proof.Machine
end

