-- ==== Sys2Proof/Laws/PerInstr.lean ====
section
/-!
SUPPORT. Statements for all instructions, one lemma per constructor. Family Reading: what the bits of a well-formed
instruction say (R58, R61, R71, R85) is again a well-formed instruction, and its bits say the same.
-/

namespace Sys2Proof.Laws.Reading

/-- The reading of a well-formed instruction is well-formed, and reading it again changes nothing. -/
def Statement (i : Instr) : Prop := i.wf = true → i.reading.wf = true ∧ i.reading.reading = i.reading

theorem setLed (r g b : Byte) (br : F32) : Statement (.setLed r g b br) := fun h => ⟨h, rfl⟩

theorem setFan (on : Bool) : Statement (.setFan on) := fun h => ⟨h, rfl⟩

theorem fanOn : Statement .fanOn := fun _ => ⟨rfl, rfl⟩

theorem fanOff : Statement .fanOff := fun _ => ⟨rfl, rfl⟩

theorem ledOff : Statement .ledOff := fun _ => ⟨rfl, rfl⟩

theorem obs (v : Bool) (t : Time) : Statement (.obs v t) := fun h => ⟨h, rfl⟩

theorem srcEnd (t : Time) : Statement (.srcEnd t) := fun h => ⟨h, rfl⟩

theorem timerFail (t : Time) : Statement (.timerFail t) := fun h => ⟨h, rfl⟩

theorem deadline : Statement .deadline := fun _ => ⟨rfl, rfl⟩

theorem startFrame (n : Nat) : Statement (.startFrame n) := fun h => ⟨h, rfl⟩

theorem ledFrame (f : Field5) (b g r : Byte) : Statement (.ledFrame f b g r) := fun h => ⟨h, rfl⟩

theorem endFrame (l : Bool) (m : Nat) : Statement (.endFrame l m) := by
  intro h
  simp only [Instr.wf, Bool.and_eq_true, decide_eq_true_eq] at h
  cases l
  · by_cases hm : m ≤ 36 <;> simp [Instr.reading, Instr.wf, hm, h]
  · by_cases hm : m = 32 <;> simp [Instr.reading, Instr.wf, hm, h]

end Sys2Proof.Laws.Reading
end

