-- ==== Sys2Proof/Laws/Step.lean ====
section
/-!
SUPPORT. Everything one step can do, said once: `Effect s m t` says that the move `m` can take `s` to `t`, with what is
known when it does.
-/

namespace Sys2Proof.Machine

/-- What a move can do. In the two cases of a word, `b` is `s`, or `s` with the held word taken from the port. -/
inductive Effect (s : State) : Move → State → Prop where
  /-- The agent takes no step. -/
  | idle (m : Move) (hm : m.isConstruct = false) : Effect s m s
  /-- A word is held (R142). -/
  | hold (cw : CmdWord) (hb : s.cmd.busy = true) : Effect s (.present cw) (s.hold cw)
  /-- A word completes at once with an error (R122, R125). -/
  | rejectWord (m : Move) (hm : m.isConstruct = false) (b : State) (c : ResCode) (hb : b = s ∨ b = s.unhold)
      (busy : s.cmd.busy = false)
      (hc : (c = .lineExportFailure ∧ s.init = .exportFailed) ∨ (c = .illegalCommand ∧ s.init = .ready)) :
      Effect s m (b.raise c 0)
  /-- A command begins (R88, R97). -/
  | beginCommand (m : Move) (hm : m.isConstruct = false) (b : State) (i : Instr) (hb : b = s ∨ b = s.unhold)
      (busy : s.cmd.busy = false) (ready : s.init = .ready) (hi : i.isCommand = true) :
      Effect s m (b.begin i (commandOps s.cfg i))
  /-- The host pops an event (R143). -/
  | popEvent : Effect s .popEvent s.popEvent
  /-- The executor steps (R89). -/
  | execute (a : Answer) : Effect s (.execute a) (s.execStep a)
  /-- The deadline expires (R104). -/
  | holdEvent (live : s.fsmLive = true) (ready : s.deadlineReady = true) :
      Effect s .fsm ((s.emit .hold).setPhase .held none)
  /-- An observation is processed (R105 to R110). -/
  | observe (live : s.fsmLive = true) (ready : s.deadlineReady = false) (v : Bool) (t : Time)
      (rest : List (TrigCode × Time)) (hq : s.inq = (obsCode v, t) :: rest) :
      Effect s .fsm (State.observe { s with inq := rest } v t)
  /-- A terminal trigger is processed (R111, R112). -/
  | terminal (live : s.fsmLive = true) (ready : s.deadlineReady = false) (c : TrigCode) (t : Time)
      (rest : List (TrigCode × Time)) (hq : s.inq = (c, t) :: rest) (e : Event) (k : EndKind)
      (hc : (c = srcEndCode ∧ e = .seqEnd ∧ k = .sourceEnd) ∨
        (c = timerFailCode ∧ e = .timerFailure ∧ k = .timerFailure)) :
      Effect s .fsm (State.endSequence { s with inq := rest } e k)
  /-- The clock advances (R31). -/
  | clock (t : Time) (ht : s.now ≤ t) : Effect s (.clock t) { s with now := t }
  /-- The button line moves (R20). -/
  | button (v : Bool) : Effect s (.button v) (s.moveButton v)
  /-- A trigger is appended directly (R119). -/
  | append (c : TrigCode) (hq : queueable c = true) (ht : s.terminalSeen = false) (hf : s.inqFull = false) :
      Effect s (.append c s.now) (s.enqueue c s.now)
  /-- An edge is delivered (R116). -/
  | edge (hm : s.cfg.sourceMode = .edge) (hp : 0 < s.src.pendingEdges) (ht : s.terminalSeen = false)
      (hf : s.inqFull = false) : Effect s .edge (s.takeEdge.enqueue (obsCode s.src.btnLvl) s.now)
  /-- A sample is taken that appends nothing (R117). -/
  | sample (hm : s.cfg.sourceMode = .poll) : Effect s .sample s.takeSample
  /-- A sample is taken that appends an observation (R117). -/
  | sampleAppend (hm : s.cfg.sourceMode = .poll) (ht : s.terminalSeen = false) (hf : s.inqFull = false) :
      Effect s .sample (s.takeSample.enqueue (obsCode s.src.btnLvl) s.now)
  /-- A new construction (R144). -/
  | construct (a : ExportAnswers) (t : State) (h : s.construct s.cfg a = .next t) : Effect s (.construct a) t

/-- An observation's code may always stand in `inq` (R67). -/
theorem queueable_obsCode (v : Bool) : queueable (obsCode v) = true := by cases v <;> rfl

/-- Accepting a word on a free port has the effects of a word (R125). -/
theorem effect_of_acceptWord {s b t : State} {m : Move} {cw : CmdWord} (hm : m.isConstruct = false)
    (hb : b = s ∨ b = s.unhold) (busy : s.cmd.busy = false) (h : b.acceptWord cw = .next t) : Effect s m t := by
  have hbusy : b.cmd.busy = false := by rcases hb with rfl | rfl <;> exact busy
  have hinit : b.init = s.init := by rcases hb with rfl | rfl <;> rfl
  have hcfg : b.cfg = s.cfg := by rcases hb with rfl | rfl <;> rfl
  rcases State.acceptWord_cases hbusy h with ⟨hi, rfl⟩ | ⟨hi, rfl⟩ | ⟨hi, i, -, hc, rfl⟩
  · exact .rejectWord m hm b _ hb busy (.inl ⟨rfl, hinit ▸ hi⟩)
  · exact .rejectWord m hm b _ hb busy (.inr ⟨rfl, hinit ▸ hi⟩)
  · rw [hcfg]; exact .beginCommand m hm b i hb busy (hinit ▸ hi) hc

/-- An issue step is no step, or has the effects of a word (R125, R142). -/
theorem effect_of_issueWord {s t : State} {m : Move} {cw : CmdWord} (hm : m.isConstruct = false)
    (h : s.issueWord cw = .next t) : Effect s m t := by
  rcases State.issueWord_cases h with rfl | ⟨hb, -, h⟩
  · exact .idle _ hm
  · exact effect_of_acceptWord hm (.inl rfl) hb h

/-- Every move that gives a next state has one of the effects. -/
theorem State.takeMove_effect {s t : State} {m : Move} (h : s.takeMove m = .next t) : Effect s m t := by
  cases m with
  | issue cw =>
    exact effect_of_issueWord rfl h
  | present cw =>
    rcases State.presentWord_cases h with ⟨hb, rfl⟩ | h
    · exact .hold cw hb
    · exact effect_of_issueWord rfl h
  | accept =>
    rcases State.acceptHeld_cases h with rfl | ⟨hb, cw, -, h⟩
    · exact .idle _ rfl
    · exact effect_of_acceptWord rfl (.inr rfl) hb h
  | popEvent => cases h; exact .popEvent
  | execute a => cases h; exact .execute a
  | fsm =>
    rcases State.fsmStep_cases h with rfl | ⟨hl, hr, rfl⟩ | ⟨hl, hr, c, τ, rest, hq, -, h⟩
    · exact .idle _ rfl
    · exact .holdEvent hl hr
    · rcases h with ⟨v, rfl, rfl⟩ | ⟨rfl, rfl⟩ | ⟨rfl, rfl⟩
      · exact .observe hl hr v τ rest hq
      · exact .terminal hl hr _ τ rest hq _ _ (.inl ⟨rfl, rfl, rfl⟩)
      · exact .terminal hl hr _ τ rest hq _ _ (.inr ⟨rfl, rfl, rfl⟩)
  | clock τ =>
    simp only [State.takeMove, State.setClock] at h
    split at h
    · next ht => cases h; exact .clock τ ht
    · cases h
  | button v => cases h; exact .button v
  | edge =>
    obtain ⟨hm, rfl | ⟨hp, h⟩⟩ := State.deliverEdge_cases h
    · exact .idle _ rfl
    · obtain ⟨-, -, ht, hf, rfl⟩ := State.appendTrigger_next h
      exact .edge hm hp ht hf
  | sample =>
    obtain ⟨hm, rfl | rfl | h⟩ := State.pollSample_cases h
    · exact .idle _ rfl
    · exact .sample hm
    · obtain ⟨-, -, ht, hf, rfl⟩ := State.appendTrigger_next h
      exact .sampleAppend hm ht hf
  | append c τ =>
    obtain ⟨hq, rfl, ht, hf, rfl⟩ := State.appendTrigger_next h
    exact .append c hq ht hf
  | construct a => exact .construct a t h

/-- No effect writes the configuration (R6). -/
theorem Effect.cfg_eq {s t : State} {m : Move} (h : Effect s m t) : t.cfg = s.cfg := by
  cases h with
  | idle | hold | popEvent | clock | button | append | edge | sample | sampleAppend | holdEvent | terminal => rfl
  | rejectWord m _ b _ hb => rcases hb with rfl | rfl <;> rfl
  | beginCommand m _ b _ hb => rcases hb with rfl | rfl <;> rfl
  | execute a => rw [State.execStep_frame]
  | observe _ _ v τ => rcases State.observe_cases { s with inq := _ } v τ with h | ⟨-, h⟩ | ⟨-, h⟩ | ⟨-, h⟩ <;> rw [h] <;> rfl
  | construct a t h => rw [(State.construct_next h).2]

/-! ### One step -/

/-- Every next state of a move stands under the configuration it started with, so a step is the move itself (R6). -/
theorem mapNext_under_takeMove (s : State) (m : Move) :
    mapNext (Block.under · s.cfg) (mapNext State.toBlock (s.takeMove m)) = s.takeMove m := by
  cases h : s.takeMove m with
  | next t => exact congrArg (fun c => Host.Outcome.next (t.toBlock.under c)) (State.takeMove_effect h).cfg_eq.symm
  | fault r => rfl
  | refused r => rfl

/-- The step of a legal block whose next move is known. -/
theorem step_of_script {s : State} {m : Move} {rest : List Move} (hl : s.cfg.legal = true)
    (hs : s.script = m :: rest) : step s = State.takeMove { s with script := rest } m := by
  rw [← mapNext_under_takeMove]
  simp only [step, Block.stepWith, hl, if_true]
  simp only [State.takeTurn, Block.under, hs]

/-- The step of a legal block with no move left (R141). -/
theorem step_of_nil {s : State} (hl : s.cfg.legal = true) (hs : s.script = []) : step s = .next s := by
  simp only [step, Block.stepWith, hl, if_true]
  simp only [State.takeTurn, Block.under, hs, mapNext]

/-- A step is one move of a legal block, or, with no move left, nothing (R8, R141). -/
theorem step_next {s t : State} (h : step s = .next t) :
    s.cfg.legal = true ∧ ((s.script = [] ∧ t = s) ∨
      ∃ m rest, s.script = m :: rest ∧ State.takeMove { s with script := rest } m = .next t) := by
  cases hl : s.cfg.legal
  case false => simp [step, Block.stepWith, hl, mapNext] at h
  case true =>
    refine ⟨rfl, ?_⟩
    cases hs : s.script with
    | nil => exact .inl ⟨rfl, by simpa [step_of_nil hl hs] using h.symm⟩
    | cons m rest => exact .inr ⟨m, rest, rfl, (step_of_script hl hs).symm.trans h⟩

/-- The inversion of a step: nothing, with no move left, or the effect of the next move. -/
theorem step_effect {s t : State} (h : step s = .next t) :
    s.cfg.legal = true ∧ ((s.script = [] ∧ t = s) ∨
      ∃ m rest, s.script = m :: rest ∧ Effect { s with script := rest } m t) := by
  obtain ⟨hl, h | ⟨m, rest, hs, h⟩⟩ := step_next h
  · exact ⟨hl, .inl h⟩
  · exact ⟨hl, .inr ⟨m, rest, hs, State.takeMove_effect h⟩⟩

/-! ### What the executor's step leaves, field by field -/

/-- After a primitive performed well, only the command path has moved on. -/
theorem State.finishPrim_frame (s : State) (rest : List Prim) :
    s.finishPrim rest = { s with cmd := (s.finishPrim rest).cmd } := by cases rest <;> rfl

/-- The history of the executor does not change when a primitive is done. -/
theorem State.finishPrim_trace (s : State) (rest : List Prim) :
    (s.finishPrim rest).cmd.trace = s.cmd.trace ∧ (s.finishPrim rest).cmd.dwellFrom = s.cmd.dwellFrom ∧
    (s.finishPrim rest).cmd.held = s.cmd.held := by cases rest <;> exact ⟨rfl, rfl, rfl⟩

@[simp] theorem State.execStep_cfg (s : State) (a : Answer) : (s.execStep a).cfg = s.cfg := by
  rw [State.execStep_frame]
@[simp] theorem State.execStep_init (s : State) (a : Answer) : (s.execStep a).init = s.init := by
  rw [State.execStep_frame]
@[simp] theorem State.execStep_fsm (s : State) (a : Answer) : (s.execStep a).fsm = s.fsm := by
  rw [State.execStep_frame]
@[simp] theorem State.execStep_src (s : State) (a : Answer) : (s.execStep a).src = s.src := by
  rw [State.execStep_frame]
@[simp] theorem State.execStep_inq (s : State) (a : Answer) : (s.execStep a).inq = s.inq := by
  rw [State.execStep_frame]
@[simp] theorem State.execStep_evq (s : State) (a : Answer) : (s.execStep a).evq = s.evq := by
  rw [State.execStep_frame]
@[simp] theorem State.execStep_emitted (s : State) (a : Answer) : (s.execStep a).emitted = s.emitted := by
  rw [State.execStep_frame]
@[simp] theorem State.execStep_now (s : State) (a : Answer) : (s.execStep a).now = s.now := by
  rw [State.execStep_frame]
@[simp] theorem State.execStep_script (s : State) (a : Answer) : (s.execStep a).script = s.script := by
  rw [State.execStep_frame]

/-- The executor changes no line's direction or edge sensing (R38). -/
theorem State.execStep_ports (s : State) (a : Answer) :
    (s.execStep a).lines.fanPort = s.lines.fanPort ∧ (s.execStep a).lines.dataPort = s.lines.dataPort ∧
    (s.execStep a).lines.clkPort = s.lines.clkPort ∧ (s.execStep a).lines.buttonPort = s.lines.buttonPort := by
  rcases s.execStep_cases a with h | ⟨-, rest, -, -, h⟩ | ⟨-, l, v, rest, -, -, h⟩ | ⟨-, l, v, rest, -, -, h⟩ <;>
    rw [h]
  · exact ⟨rfl, rfl, rfl, rfl⟩
  · rw [State.finishPrim_frame]; exact ⟨rfl, rfl, rfl, rfl⟩
  · rw [State.finishPrim_frame]; simp
  · simp

/-- An observation reaches only the state machine and its output. -/
theorem State.observe_frame (s : State) (v : Bool) (t : Time) :
    s.observe v t = { s with
      fsm := (s.observe v t).fsm, evq := (s.observe v t).evq, emitted := (s.observe v t).emitted } := by
  rcases s.observe_cases v t with h | ⟨-, h⟩ | ⟨-, h⟩ | ⟨-, h⟩ <;> rw [h] <;> rfl

end Sys2Proof.Machine
end

