-- ==== Sys2Proof/Tests/Slice0.lean ====
section
/-!
SUPPORT. The model's own tests. Every expected value is written out from the spec: the encodings of `30_encoding.md`, the
tables T1 to T9 and the programs of `95_test_vectors.md`. The theorems `witness_…` show for each statement of
`Certificates/Slice0/Obligations.lean` that its hypotheses can be met together, clause by clause.
-/

namespace Sys2Proof.Tests

open Sys2Proof Sys2Proof.Machine

/-! ### Well-formedness: ill-formed terms are refused -/

/-- R67: a timestamp of 65 bits. -/
theorem test_wf_timestamp :
    (Instr.obs true (2 ^ 64)).wf = false ∧ (Instr.srcEnd (2 ^ 64)).wf = false ∧
    (Instr.timerFail (2 ^ 64)).wf = false ∧ (Instr.obs true (2 ^ 64 - 1)).wf = true := by decide

/-- R6: start frames of 32 to 36 pulses. -/
theorem test_wf_start_pulses :
    (Instr.startFrame 31).wf = false ∧ (Instr.startFrame 37).wf = false ∧
    (Instr.startFrame 32).wf = true ∧ (Instr.startFrame 36).wf = true := by decide

/-- R6: end frames of 32 to 255 pulses. -/
theorem test_wf_end_pulses :
    (Instr.endFrame true 31).wf = false ∧ (Instr.endFrame false 256).wf = false ∧
    (Instr.endFrame true 32).wf = true ∧ (Instr.endFrame false 255).wf = true := by decide

/-- R6: each legal bound of the configuration. -/
theorem test_cfg_legal_bounds :
    { Cfg.default with startPulses := 31 }.legal = false ∧ { Cfg.default with startPulses := 37 }.legal = false ∧
    { Cfg.default with endPulses := 31 }.legal = false ∧ { Cfg.default with endPulses := 256 }.legal = false ∧
    { Cfg.default with dwellNs := 249 }.legal = false ∧ { Cfg.default with holdTimeNs := 0 }.legal = false ∧
    { Cfg.default with pollIntervalNs := 0 }.legal = false ∧ { Cfg.default with inDepth := some 0 }.legal = false ∧
    { Cfg.default with evDepth := some 0 }.legal = false ∧ Cfg.default.legal = true := by decide

/-! ### Decoding words written out from the encodings -/

/-- R55, R56, T3: `set_led 0x12, 0x34, 0x56, 0.5`. -/
theorem test_decode_set_led :
    decodeTableWord 64 0x101234563F000000 = some (.setLed 0x12 0x34 0x56 0x3F000000) := by decide

/-- R57, T6: OP 2 and the level in bit 0. -/
theorem test_decode_set_fan :
    decodeTableWord 64 0x2000000000000001 = some (.setFan true) ∧
    decodeTableWord 64 0x2000000000000000 = some (.setFan false) := by decide

/-- R71: the words of the pseudo-instructions are the words of their expansions. -/
theorem test_decode_pseudo :
    encode .fanOn = .command 0x2000000000000001 ∧ decode (encode .fanOn) = decode (encode (.setFan true)) ∧
    encode .fanOff = .command 0x2000000000000000 ∧ decode (encode .fanOff) = decode (encode (.setFan false)) ∧
    encode .ledOff = .command 0x1000000000000000 ∧ decode (encode .ledOff) = decode (encode (.setLed 0 0 0 0)) :=
  ⟨rfl, rfl, rfl, rfl, rfl, rfl⟩

/-- R67: OBS, with the level in bit 0; in the third word the timestamp stands above the code (log 32). -/
theorem test_decode_obs :
    decodeTableWord 8 0x00 = some (.obs false 0) ∧ decodeTableWord 8 0x01 = some (.obs true 0) ∧
    decodeTableWord 72 0x0000000000001234_01 = some (.obs true 0x1234) := by decide

/-- R67: SRC_END. -/
theorem test_decode_src_end : decodeTableWord 8 0x40 = some (.srcEnd 0) := by decide

/-- R67: TIMER_FAIL. -/
theorem test_decode_timer_fail : decodeTableWord 8 0x80 = some (.timerFail 0) := by decide

/-- R67: DEADLINE. -/
theorem test_decode_deadline : decodeTableWord 8 0xC0 = some .deadline := by decide

/-- R67: non-zero reserved bits, and bit 0 of a code that is no OBS. -/
theorem test_decode_malformed_triggers :
    decodeTableWord 8 0x02 = none ∧ decodeTableWord 8 0x20 = none ∧ decodeTableWord 8 0x41 = none ∧
    decodeTableWord 8 0x81 = none ∧ decodeTableWord 8 0xC1 = none := by decide

/-- R60: 32 and 36 low cells. -/
theorem test_decode_start_frame :
    decodeTableWord 32 0 = some (.startFrame 32) ∧ decodeTableWord 36 0 = some (.startFrame 36) := by decide

/-- R61, T3: `11110000 01010110 00110100 00010010`, and the frame of brightness 0. -/
theorem test_decode_led_frame :
    decodeTableWord 32 0b11110000010101100011010000010010 = some (.ledFrame 16 0x56 0x34 0x12) ∧
    decodeTableWord 32 0xE0000000 = some (.ledFrame 0 0 0 0) := by decide

/-- R62: 40 high cells, and 40 low ones. -/
theorem test_decode_end_frame :
    decodeTableWord 40 0xFFFFFFFFFF = some (.endFrame true 40) ∧
    decodeTableWord 40 0 = some (.endFrame false 40) := by decide

/-- R61: a word without the prefix 111 is no frame. -/
theorem test_decode_no_frame :
    decodeTableWord 32 0xC0000000 = none ∧ decodeTableWord 32 0x7FFFFFFF = none ∧ decodeTableWord 31 0 = none := by
  decide

/-- R59, T6: the illegal words. -/
theorem test_decode_illegal_words :
    decodeTableWord 64 0x0000000000000000 = none ∧ decodeTableWord 64 0x1100000000000000 = none ∧
    decodeTableWord 64 0x180000003F800000 = none ∧ decodeTableWord 64 0x2000000000000002 = none ∧
    decodeTableWord 64 0x2100000000000001 = none ∧ decodeTableWord 64 0x3000000000000000 = none ∧
    decodeTableWord 64 0xF000000000000000 = none := by decide

/-- T6: every bit of the operands set. -/
theorem test_decode_all_ones_operands :
    decodeTableWord 64 0x10FFFFFFFFFFFFFF = some (.setLed 255 255 255 0xFFFFFFFF) := by decide

/-- R66, R68: the code bits. -/
theorem test_code_bits :
    [Event.press, .release, .hold, .seqEnd, .timerFailure].map Event.bits = [0b000, 0b001, 0b010, 0b110, 0b111] ∧
    [ResCode.ok, .lineWriteFailure, .illegalCommand, .lineExportFailure].map ResCode.bits =
      [0b00, 0b01, 0b10, 0b11] ∧
    [Line.out .fan, .out .data, .out .clk, .button].map Line.number = [18, 15, 14, 17] := by decide

/-! ### Brightness: tables T1 and T2 -/

/-- T1, CLAMP column. -/
theorem test_t1_clamp :
    ([0x00000000, 0x80000000, 0x00000001, 0x3D03126F, 0x3E800000, 0x3F000000, 0x3F400000, 0x3F7FFFFF, 0x3F800000,
      0x3F800001, 0x3F820821, 0x3F8420C4, 0x3F851EB8, 0x3FC00000, 0x40000000, 0x41000000, 0x41200000, 0x43000000,
      0x7F7FFFFF, 0xBC23D70A, 0xBF000000, 0x7F800000, 0xFF800000, 0x7FC00000, 0xFFC00000] : List F32).map quantizeClamp =
    [0, 0, 0, 1, 8, 16, 23, 31, 31, 31, 31, 31, 31, 31, 31, 31, 31, 31, 31, 0, 0, 31, 0, 0, 0] := by decide

/-- T1, WRAP column, where the table gives a value. -/
theorem test_t1_wrap :
    ([0x00000000, 0x80000000, 0x00000001, 0x3D03126F, 0x3E800000, 0x3F000000, 0x3F400000, 0x3F7FFFFF, 0x3F800000,
      0x3F800001, 0x3F820821, 0x3F8420C4, 0x3F851EB8, 0x3FC00000, 0x40000000, 0x41000000, 0xBC23D70A] :
      List F32).map quantizeWrap =
    [0, 0, 0, 1, 8, 16, 23, 31, 31, 31, 31, 0, 0, 15, 30, 24, 0] := by
  simp only [List.map_cons, List.map_nil]; rfl

/-- T2, rows k = 0 to 15. -/
theorem test_t2_low :
    ([0x3C842108, 0x3D46318C, 0x3DA5294A, 0x3DE739CE, 0x3E14A529, 0x3E35AD6B, 0x3E56B5AD, 0x3E77BDEF, 0x3E8C6319,
      0x3E9CE73A, 0x3EAD6B5B, 0x3EBDEF7C, 0x3ECE739D, 0x3EDEF7BE, 0x3EEF7BDF, 0x3F000000] : List F32).map quantizeClamp =
    [1, 2, 3, 4, 5, 6, 7, 8, 9, 10, 11, 12, 13, 14, 15, 16] := by decide

/-- T2, rows k = 16 to 30. -/
theorem test_t2_high :
    ([0x3F084210, 0x3F108421, 0x3F18C632, 0x3F210842, 0x3F294A53, 0x3F318C63, 0x3F39CE74, 0x3F421084, 0x3F4A5295,
      0x3F5294A5, 0x3F5AD6B6, 0x3F6318C6, 0x3F6B5AD7, 0x3F739CE7, 0x3F7BDEF8] : List F32).map quantizeClamp =
    [17, 18, 19, 20, 21, 22, 23, 24, 25, 26, 27, 28, 29, 30, 31] := by decide

/-- T1, the column p: products, among them a subnormal and an overflow; and zero times a large number (R12). -/
theorem test_products :
    f32Mul f32ThirtyOne 0x3F000000 = 0x41780000 ∧ f32Mul f32ThirtyOne 0x3E800000 = 0x40F80000 ∧
    f32Mul f32ThirtyOne 0x00000001 = 0x0000001F ∧ f32Mul f32ThirtyOne 0x7F7FFFFF = 0x7F800000 ∧
    f32Mul f32ThirtyOne 0x3C842108 = 0x3F000000 ∧
    f32Mul 0x00000000 0x7F7FFFFF = 0x00000000 ∧ f32Mul 0xFF7FFFFF 0x00000000 = 0x80000000 := by decide

/-! ### Frames -/

/-- R81 example, and E2: byte 0xB0. -/
theorem test_bit_and_byte :
    bitOps true = [.w .data true, .w .clk true, .d, .w .clk false, .d] ∧
    (writesOf (byteOps 0xB0)).length = 24 ∧ dwellsOf (byteOps 0xB0) = 16 ∧
    (byteOps 0xB0).take 10 = [.w .data true, .w .clk true, .d, .w .clk false, .d,
      .w .data false, .w .clk true, .d, .w .clk false, .d] := by decide

/-- T4, the first row. -/
theorem test_t4_default_counts :
    (frameOps Cfg.default 16 0x56 0x34 0x12).length = 418 ∧
    (writesOf (frameOps Cfg.default 16 0x56 0x34 0x12)).length = 226 ∧
    dwellsOf (frameOps Cfg.default 16 0x56 0x34 0x12) = 192 := by
  set_option maxRecDepth 8000 in decide

/-- T3: the CLAMP frame of `set_led 1, 2, 3, 2.0` as it stands on the wire, 32 cells in. -/
theorem test_t3_wire :
    bitsToNat (((wireCells true (commandOps Cfg.default (.setLed 1 2 3 0x40000000))).drop 32).take 32) = 0xFF030201 := by
  set_option maxRecDepth 8000 in decide

/-! ### Assembler (R70, R71) -/

/-- T3's commands, in several spellings. -/
theorem test_assemble_set_led :
    assembleLine "set_led 0x12, 0x34, 0x56, 0.5".toList = some (.command (.setLed 0x12 0x34 0x56 0x3F000000)) ∧
    assembleLine "SET_LED 10,20 ,30, f32:0x7FC00000 ; NaN".toList = some (.command (.setLed 10 20 30 0x7FC00000)) ∧
    assembleLine "set_led 256, 0, 0, 1.0".toList = none := by
  set_option maxRecDepth 8000 in decide

/-- The fan line, the pseudo-instructions and an environment line. -/
theorem test_assemble_others :
    assembleLine "set_fan on".toList = some (.command (.setFan true)) ∧
    assembleLine "led_off".toList = some (.command .ledOff) ∧
    assembleLine "@5 timer_fail".toList = some (.moves [.clock 5, .append 0x80 5]) ∧
    assembleLine "@100 obs 0".toList = some (.moves [.clock 100, .append 0x00 100]) ∧
    assembleLine ".word 0x3000000000000000".toList = none := by
  set_option maxRecDepth 8000 in decide

/-! ### Small states -/

/-- A block that is ready, some time after reset, with moves to come. -/
def idle (moves : List Move) : State := { State.reset with now := 1000, script := moves }

/-- A block in the middle of a SET_FAN. -/
def fanRunning (moves : List Move) : State := (idle moves).begin (.setFan true) [.w .fan true]

/-- A block whose line-14 export failed (T9). -/
def failed (moves : List Move) : State :=
  { idle moves with
    init := .exportFailed
    lines := ⟨.unknown, .unknown, .unknown, some ⟨.output, .none⟩, some ⟨.output, .none⟩, none, none⟩ }

/-- A block in phase Pressed since time 1000, its PRESS not yet popped. -/
def pressed (moves : List Move) : State :=
  { idle moves with
    fsm := ⟨.pressed, some 2000001000, none⟩
    evq := [.press]
    emitted := [.press] }

/-- A block in phase Held. -/
def held (moves : List Move) : State :=
  { idle moves with
    fsm := ⟨.held, none, none⟩
    emitted := [.press, .hold] }

/-- A block whose event sequence has ended. -/
def ended (moves : List Move) : State :=
  { idle moves with
    fsm := ⟨.ended, none, some .sourceEnd⟩
    emitted := [.seqEnd] }

/-- A POLL block. -/
def polling (moves : List Move) : State :=
  { idle moves with
    cfg := { Cfg.default with sourceMode := .poll }
    lines := { State.reset.lines with buttonPort := some ⟨.input, .none⟩ } }

theorem keepsBlock_cons (s : State) (m : Move) (rest : List Move) (h : s.script = m :: rest)
    (hm : m.isConstruct = false) : s.keepsBlock := by
  intro m' rest' h'
  rw [h] at h'
  injection h' with h₁ _
  exact h₁ ▸ hm

theorem idle_commandInv (moves : List Move) : CommandInv (idle moves) where
  config := rfl
  running := rfl
  loaded := rfl
  current := nofun
  lastResult := rfl
  resultWf := nofun
  failed := nofun
  levels := by intro _ l; cases l <;> rfl
  ports := fun _ => ⟨rfl, rfl, rfl, rfl⟩
  dwell := Nat.zero_le _

theorem failed_commandInv (moves : List Move) : CommandInv (failed moves) where
  config := rfl
  running := rfl
  loaded := rfl
  current := nofun
  lastResult := rfl
  resultWf := nofun
  failed := fun _ => ⟨rfl, rfl, by intro l; cases l <;> rfl⟩
  levels := nofun
  ports := nofun
  dwell := Nat.zero_le _

theorem fanRunning_commandInv (moves : List Move) : CommandInv (fanRunning moves) where
  config := rfl
  running := rfl
  loaded := rfl
  current := by
    intro i hi
    injection hi with hi
    subst hi
    exact ⟨rfl, [], [], rfl, rfl⟩
  lastResult := rfl
  resultWf := nofun
  failed := nofun
  levels := by intro _ l; cases l <;> rfl
  ports := fun _ => ⟨rfl, rfl, rfl, rfl⟩
  dwell := Nat.le_refl _

theorem pressed_queueInv (moves : List Move) : QueueInv { pressed moves with inq := [(0x01, 1000)] } where
  codes := by simp [queueable, decodeTrigger]
  stamps := by simp
  past := by intro e he; rw [List.mem_singleton.mp he]; exact Nat.le_refl 1000
  terminalLast := nofun
  drained := nofun
  capacity := nofun
  sampled := rfl
  samplePast := nofun
  edgeMode := fun _ => rfl
  pollMode := nofun

/-! ### One step per instruction -/

/-- R88, T3: SET_LED from reset loads its 418 primitives, and the next step performs `W(15,0)`. -/
theorem test_step_set_led :
    ∃ t, step (State.reset.withFetchWord 64 0x101234563F000000) = .next t ∧ t.cmd.busy = true ∧
      t.cmd.cur = some (.setLed 0x12 0x34 0x56 0x3F000000) ∧ t.cmd.encOps.length = 418 ∧
      t.cmd.encOps.head? = some (.w .data false) := by
  set_option maxRecDepth 8000 in exact ⟨_, rfl, rfl, rfl, by decide, by decide⟩

/-- R97: `set_fan 0` from reset, with the write answered `ok`, leaves the fan line low and the result OK. -/
theorem test_step_set_fan :
    ∃ t, run 2 { State.reset with script := [.issue 0x2000000000000000, .execute .ok] } = .next t ∧
      t.lines.fan = .low ∧ t.cmd.trace = [.write .fan false .ok] ∧ t.cmd.results = [⟨.ok, 0⟩] :=
  ⟨_, rfl, rfl, rfl, rfl⟩

/-- P1: the failing write leaves the line unknown and the result names line 18; the next command runs as ever. -/
theorem test_program_p1 :
    ∃ t, run 4 { State.reset with script :=
        [.issue 0x2000000000000000, .execute .fail, .issue 0x2000000000000000, .execute .ok] } = .next t ∧
      t.lines.fan = .low ∧ t.cmd.results = [⟨.lineWriteFailure, 18⟩, ⟨.ok, 0⟩] ∧
      t.cmd.trace = [.write .fan false .fail, .write .fan false .ok] :=
  ⟨_, rfl, rfl, rfl, rfl⟩

/-- R71: `fan_on` and `fan_off` as meanings. -/
theorem test_exec_fan_pseudo :
    (∃ t, exec .fanOn (idle []) = .next t ∧ t.cmd.encOps = [.w .fan true]) ∧
    (∃ t, exec .fanOff (idle []) = .next t ∧ t.cmd.encOps = [.w .fan false]) :=
  ⟨⟨_, rfl, rfl⟩, ⟨_, rfl, rfl⟩⟩

/-- R71: `led_off` sends the data frame 0xE0000000. -/
theorem test_exec_led_off :
    ∃ t, exec .ledOff (idle []) = .next t ∧
      bitsToNat (((wireCells false t.cmd.encOps).drop 32).take 32) = 0xE0000000 := by
  set_option maxRecDepth 8000 in exact ⟨_, rfl, by decide⟩

/-- T7, B14: an OBS(0) from Idle. -/
theorem test_step_obs :
    ∃ t, step (State.reset.withFetchWord 8 0x00) = .next t ∧ t.evq = [.press] ∧
      t.fsm = ⟨.pressed, some 2000000000, none⟩ :=
  ⟨_, rfl, rfl, rfl⟩

/-- R108: OBS(1) in Pressed. -/
theorem test_exec_obs_release :
    ∃ t, exec (.obs true 1999999999) (pressed []) = .next t ∧ t.evq = [.press, .release] ∧
      t.fsm = ⟨.idle, none, none⟩ :=
  ⟨_, rfl, rfl, rfl⟩

/-- T7, B10. -/
theorem test_exec_src_end :
    ∃ t, exec (.srcEnd 1999999999) (pressed []) = .next t ∧ t.evq = [.press, .seqEnd] ∧
      t.fsm = ⟨.ended, none, some .sourceEnd⟩ :=
  ⟨_, rfl, rfl, rfl⟩

/-- T7, B13. -/
theorem test_exec_timer_fail :
    ∃ t, exec (.timerFail 5) (idle []) = .next t ∧ t.evq = [.timerFailure] ∧
      t.fsm = ⟨.ended, none, some .timerFailure⟩ :=
  ⟨_, rfl, rfl, rfl⟩

/-- T7, B5: a tie at the deadline gives HOLD first, then RELEASE. -/
theorem test_tie_at_the_deadline :
    ∃ t, run 2 { pressed [.fsm, .fsm] with inq := [(0x01, 2000001000)], now := 2000001000 } = .next t ∧
      t.evq = [.press, .hold, .release] ∧ t.fsm = ⟨.idle, none, none⟩ :=
  ⟨_, rfl, rfl, rfl⟩

/-- R104: the DEADLINE row's word. -/
theorem test_step_deadline :
    ∃ t, step (State.reset.withFetchWord 8 0xC0) = .next t ∧ t.evq = [.hold] ∧ t.fsm = ⟨.held, none, none⟩ :=
  ⟨_, rfl, rfl, rfl⟩

/-- R83 example: 65 writes and 64 dwells; its first step writes the data line low. -/
theorem test_step_start_frame :
    ∃ t, step (State.reset.withFetchWord 32 0) = .next t ∧ t.cmd.trace = [.write .data false .ok] ∧
      t.cmd.cur = some (.startFrame 32) ∧ t.cmd.encOps.length = 128 := by
  set_option maxRecDepth 4000 in exact ⟨_, rfl, rfl, rfl, by decide⟩

/-- R84: 96 writes and 64 dwells; its first step writes bit 7 of the control byte. -/
theorem test_step_led_frame :
    ∃ t, step (State.reset.withFetchWord 32 0xF0563412) = .next t ∧ t.cmd.trace = [.write .data true .ok] ∧
      t.cmd.cur = some (.ledFrame 16 0x56 0x34 0x12) ∧ t.cmd.encOps.length = 159 := by
  set_option maxRecDepth 4000 in exact ⟨_, rfl, rfl, rfl, by decide⟩

/-- R85: its first step writes the data line to END_LEVEL. -/
theorem test_step_end_frame :
    ∃ t, step (State.reset.withFetchWord 40 0xFFFFFFFFFF) = .next t ∧ t.cmd.trace = [.write .data true .ok] ∧
      t.cmd.cur = some (.endFrame true 40) ∧ t.cmd.encOps.length = 160 := by
  set_option maxRecDepth 4000 in exact ⟨_, rfl, rfl, rfl, by decide⟩

/-- T8, the first two rows: the baseline sample, then an OBS(0). -/
theorem test_poll_samples :
    ∃ t, run 4 (polling [.sample, .clock 50001000, .button false, .sample]) = .next t ∧ t.src.prev = some false ∧
      t.inq = [(0x00, 50001000)] :=
  ⟨_, rfl, rfl, rfl⟩

/-- T7, B18: an append after a terminal trigger is refused. -/
theorem test_append_after_terminal :
    run 2 (idle [.append 0x40 1000, .append 0x01 1000]) = .refused .appendAfterTerminal := rfl

/-- T7, the stall of a full `evq`. -/
theorem test_full_evq_stalls :
    ∃ t, step { pressed [.fsm] with
        cfg := { Cfg.default with evDepth := some 1 }, inq := [(0x01, 10)] } = .next t ∧
      t.evq = [.press] ∧ t.inq = [(0x01, 10)] :=
  ⟨_, rfl, rfl, rfl⟩

/-- T9, line 14 the first to fail. -/
theorem test_export_failure :
    ∃ t, State.reset.construct Cfg.default ⟨.ok, .ok, .fail, .ok⟩ = .next t ∧ t.init = .exportFailed ∧
      t.lines.data = .unknown ∧ t.lines.dataPort = some ⟨.output, .none⟩ ∧ t.lines.clkPort = none :=
  ⟨_, rfl, rfl, rfl, rfl, rfl⟩

/-! ### The hypotheses of the statements can be met -/

/-- ConstructionExportsTheLinesInOrder: legal records at both ends of the ranges, and answers for each clause. -/
theorem witness_construction_clauses :
    Cfg.default.legal = true ∧
    { Cfg.default with startPulses := 36, endPulses := 255, inDepth := some 1, evDepth := some 1 }.legal = true ∧
    (⟨.fail, .ok, .ok, .ok⟩ : ExportAnswers).fan = .fail ∧
    (⟨.ok, .fail, .ok, .ok⟩ : ExportAnswers).data = .fail ∧
    (⟨.ok, .ok, .fail, .ok⟩ : ExportAnswers).clk = .fail ∧
    (⟨.ok, .ok, .ok, .fail⟩ : ExportAnswers).button = .fail := by decide

/-- ResetTableHolds, second half: the button line the only one to fail. -/
theorem witness_failed_construction :
    ∃ t, (idle []).construct Cfg.default ⟨.ok, .ok, .ok, .fail⟩ = .next t ∧ t.init = .exportFailed :=
  ⟨_, rfl, rfl⟩

/-- IllegalConfigurationIsRefused: just outside a range, as a new record and as the block's own. -/
theorem witness_illegal_configuration :
    { Cfg.default with startPulses := 37 }.legal = false ∧
    { idle [] with cfg := { Cfg.default with dwellNs := 249 } }.cfg.legal = false := by decide

/-- ConfigurationInitAndPortsAreFixed, ResultsAreWrittenOncePerCommand, OnlyTheExecutorMovesLines: a step that ends a
command and moves a line. -/
theorem witness_moving_step :
    (fanRunning [.execute .fail]).keepsBlock ∧ (fanRunning [.execute .fail]).cmd.busy = true ∧
    ∃ t, step (fanRunning [.execute .fail]) = .next t ∧
      t.lines.level .fan ≠ (fanRunning [.execute .fail]).lines.level .fan :=
  ⟨keepsBlock_cons _ _ _ rfl rfl, rfl, _, rfl, by decide⟩

/-- EncodedInstructionsDecodeBack: every constructor, at the ends of its ranges. -/
theorem witness_well_formed :
    ([.setLed 0 0 0 0, .setLed 255 255 255 0xFFFFFFFF, .setFan true, .setFan false, .fanOn, .fanOff, .ledOff,
      .obs false 0, .obs true (2 ^ 64 - 1), .srcEnd (2 ^ 64 - 1), .timerFail 0, .deadline, .startFrame 32, .startFrame 36,
      .ledFrame 0 0 0 0, .ledFrame 31 255 255 255, .endFrame false 32, .endFrame true 32, .endFrame false 37,
      .endFrame true 255] : List Instr).all Instr.wf = true := by decide

/-- DecodedWordsEncodeBack: the first two clauses. -/
theorem witness_decoded_words :
    decodeCommand 0x10FFFFFFFFFFFFFF = .ok (.setLed 255 255 255 0xFFFFFFFF) ∧
    decodeCommand 0x2000000000000001 = .ok (.setFan true) ∧
    decodeTrigger 0x01 0 = .ok (.obs true 0) ∧ decodeTrigger 0x80 7 = .ok (.timerFail 7) ∧
    Instr.timerFail 7 ≠ .deadline :=
  ⟨rfl, rfl, rfl, rfl, by decide⟩

/-- ClampedBrightnessCorners: each clause at the ends of its range. -/
theorem witness_brightness_corners :
    isNaN 0x7F800001 = true ∧ isNaN 0xFFFFFFFF = true ∧
    (isNaN 0x3F800000 = false ∧ f32Le f32One 0x3F800000 = true) ∧
    (isNaN 0x7F800000 = false ∧ f32Le f32One 0x7F800000 = true) ∧
    (isNaN 0x80000000 = false ∧ f32Le 0x80000000 f32Zero = true) ∧
    (isNaN 0xFF800000 = false ∧ f32Le 0xFF800000 f32Zero = true) := by decide

/-- ModesAgreeOnTheUnitRange, FieldIsCloseToThirtyOneTimesBrightness: the ends of [0, 1]. -/
theorem witness_unit_range :
    (isNaN 0x00000000 = false ∧ f32Le f32Zero 0x00000000 = true ∧ f32Le 0x00000000 f32One = true ∧
      f32Sign 0x00000000 = false) ∧
    (isNaN 0x3F800000 = false ∧ f32Le f32Zero 0x3F800000 = true ∧ f32Le 0x3F800000 f32One = true ∧
      f32Sign 0x3F800000 = false) := by decide

/-- WrapModeOnEveryPattern: each reason for the open parameter, and both ends of the settled range. -/
theorem witness_wrap_clauses :
    isNaN 0x7FC00000 = true ∧ isInf (f32Mul f32ThirtyOne 0x7F7FFFFF) = true ∧
    roundHalfAway (f32Mul f32ThirtyOne 0xBF000000) = -16 ∧ roundHalfAway (f32Mul f32ThirtyOne 0x41200000) = 310 ∧
    (isNaN 0xBC23D70A = false ∧ isInf (f32Mul f32ThirtyOne 0xBC23D70A) = false ∧
      roundHalfAway (f32Mul f32ThirtyOne 0xBC23D70A) = 0) ∧
    (isNaN 0x41039CE7 = false ∧ isInf (f32Mul f32ThirtyOne 0x41039CE7) = false ∧
      roundHalfAway (f32Mul f32ThirtyOne 0x41039CE7) = 255) := by decide

/-- ClampedBrightnessIsMonotone: −inf against +inf. -/
theorem witness_ordered_brightness :
    isNaN 0xFF800000 = false ∧ isNaN 0x7F800000 = false ∧ f32Le 0xFF800000 0x7F800000 = true := by decide

/-- FrameIsStartDataEndOnTwoLines: a write of a frame. FrameCountsAndWriteNumbers: the first and the last bit. -/
theorem witness_frame_write :
    Prim.w .data false ∈ commandOps Cfg.default (.setLed 0 0 0 0) ∧ 0 < 32 ∧ 31 < 32 :=
  ⟨List.mem_cons_self, by decide, by decide⟩

/-- SetLedLoadsItsFrame, SetFanLoadsOneWrite, PseudoInstructionsAreTheirExpansions, WireFramesLoadTheirPrimitives and
SetLedIsItsThreeFrames: a free port, with and without a failed construction, and a port in use. -/
theorem witness_ports :
    ((idle []).cmd.busy = false ∧ (idle []).init = .ready) ∧
    ((failed []).cmd.busy = false ∧ (failed []).init = .exportFailed) ∧
    (fanRunning []).cmd.busy = true := by decide

/-- BusyPortHoldsTheWord: with no word held and with one held, by an instruction and by each of the host's moves. -/
theorem witness_busy_port :
    (fanRunning []).cmd.busy = true ∧ encode .ledOff = .command 0x1000000000000000 ∧
    (fanRunning []).cmd.held = none ∧ ((fanRunning []).hold 7).cmd.held ≠ none ∧
    (fanRunning [.issue 0]).cfg.legal = true ∧ (fanRunning [.issue 0]).script = .issue 0 :: [] ∧
    ((fanRunning [.present 0]).cmd.held = none ∧ (fanRunning [.present 0]).script = .present 0 :: []) ∧
    (((fanRunning [.present 0]).hold 7).cmd.held ≠ none ∧
      ((fanRunning [.present 0]).hold 7).script = .present 0 :: []) := by decide

/-- R142, D7: a word presented while SET_FAN runs waits, and begins once the SET_FAN has ended. -/
theorem test_presented_word_waits :
    ∃ t, run 4 (fanRunning [.present 0x2000000000000000, .present 0x1000000000000000, .execute .ok, .accept]) = .next t ∧
      t.cmd.results = [⟨.ok, 0⟩] ∧ t.cmd.cur = some (.setFan false) ∧ t.cmd.held = none :=
  ⟨_, rfl, rfl, rfl, rfl⟩

/-- StepRunsThePresentedCommand. -/
theorem witness_presented_command :
    let s := idle [.issue 0x2000000000000001]
    s.cfg.legal = true ∧ s.init = .ready ∧ s.cmd.busy = false ∧ s.cmd.held = none ∧
      (s.script = .issue 0x2000000000000001 :: [] ∨ s.script = .present 0x2000000000000001 :: []) ∧
      decodeCommand 0x2000000000000001 = .ok (.setFan true) :=
  ⟨rfl, rfl, rfl, rfl, .inl rfl, rfl⟩

/-- StepRunsThePresentedCommand: the same word, presented. -/
theorem witness_presented_word :
    (idle [.present 0x2000000000000001]).script = .present 0x2000000000000001 :: [] ∧
    (idle [.present 0x2000000000000001]).cmd.held = none := by decide

/-- HeldWordRunsOnceThePortIsFree: a command in progress; a free port with a legal and with an illegal word held; and a
failed construction. -/
theorem witness_held_word :
    let r := (fanRunning [.accept]).hold 0x2000000000000001
    let s := (idle [.accept]).hold 0x2000000000000001
    let u := (idle [.accept]).hold 0x2000000000000002
    let f := (failed [.accept]).hold 0x2000000000000002
    (r.cfg.legal = true ∧ r.cmd.held = some 0x2000000000000001 ∧ r.script = .accept :: [] ∧ r.cmd.busy = true) ∧
    (s.cmd.held = some 0x2000000000000001 ∧ s.cmd.busy = false ∧ s.init = .ready ∧
      decodeCommand 0x2000000000000001 = .ok (.setFan true)) ∧
    (u.cmd.held = some 0x2000000000000002 ∧ u.cmd.busy = false ∧ u.init = .ready ∧
      decodeCommand 0x2000000000000002 = .error .illegalCommand) ∧
    (f.cmd.held = some 0x2000000000000002 ∧ f.cmd.busy = false ∧ f.init = .exportFailed) :=
  ⟨⟨rfl, rfl, rfl, rfl⟩, ⟨rfl, rfl, rfl, rfl⟩, ⟨rfl, rfl, rfl, rfl⟩, ⟨rfl, rfl, rfl⟩⟩

/-- IllegalWordCompletesAtOnce. -/
theorem witness_illegal_word :
    let s := idle [.issue 0x2000000000000002]
    CommandInv s ∧ s.init = .ready ∧ s.cmd.busy = false ∧ s.cmd.held = none ∧
      s.script = .issue 0x2000000000000002 :: [] ∧ decodeCommand 0x2000000000000002 = .error .illegalCommand :=
  ⟨idle_commandInv _, rfl, rfl, rfl, rfl, rfl⟩

/-- FailedConstructionAnswersEveryWord: its three clauses. -/
theorem witness_failed_block :
    CommandInv (failed [.issue 0]) ∧ (failed [.issue 0]).init = .exportFailed ∧ (failed [.issue 0]).cmd.held = none ∧
    CommandInv (failed [.fsm]) ∧ (failed [.fsm]).script = .fsm :: [] ∧ (failed [.fsm]).keepsBlock ∧
    ∃ t, step (failed [.fsm]) = .next t :=
  ⟨failed_commandInv _, rfl, rfl, failed_commandInv _, rfl, keepsBlock_cons _ _ _ rfl rfl, _, rfl⟩

/-- A command with the primitives `ops` left and the executor's move next. -/
def executing (ops : List Prim) (a : Answer) : State := (idle [.execute a]).begin (.setLed 0 0 0 0) ops

/-- ExecutorPerformsOnePrimitive: its five clauses, the last two just when the dwell is over. -/
theorem witness_executor_clauses :
    ((executing [.w .clk true, .d] .ok).cfg.legal = true ∧ (executing [.w .clk true, .d] .ok).cmd.busy = true ∧
      (executing [.w .clk true, .d] .ok).cmd.encOps = .w .clk true :: [.d] ∧ [Prim.d] ≠ []) ∧
    (executing [.w .fan true] .ok).cmd.encOps = [.w .fan true] ∧
    (executing [.w .data false] .fail).cmd.encOps = .w .data false :: [] ∧
    (executing [.w .data false] .fail).script = .execute .fail :: [] ∧
    ({ executing [.d, .d] .ok with now := 1250 }.cmd.encOps = .d :: [.d] ∧
      { executing [.d, .d] .ok with now := 1250 }.cmd.dwellFrom +
        { executing [.d, .d] .ok with now := 1250 }.cfg.dwellNs ≤ { executing [.d, .d] .ok with now := 1250 }.now) ∧
    { executing [.d] .ok with now := 1250 }.cmd.encOps = [.d] := by
  decide

/-- ExecutorWaits: no command, and a dwell one nanosecond short. -/
theorem witness_executor_waits :
    (idle [.execute .ok]).cmd.busy = false ∧
    ({ executing [.d] .ok with now := 1249 }.cmd.busy = true ∧
      { executing [.d] .ok with now := 1249 }.cmd.encOps = .d :: [] ∧
      { executing [.d] .ok with now := 1249 }.now <
        { executing [.d] .ok with now := 1249 }.cmd.dwellFrom + { executing [.d] .ok with now := 1249 }.cfg.dwellNs) := by
  decide

/-- SetFanResultIsTheAnswer: both answers. -/
theorem witness_set_fan_script :
    (idle [.issue 0x2000000000000001, .execute .ok]).script =
      .issue (0x200000000000000#60 ++ (0#3 ++ BitVec.ofBool true)) :: .execute .ok :: [] ∧
    (idle [.issue 0x2000000000000000, .execute .fail]).script =
      .issue (0x200000000000000#60 ++ (0#3 ++ BitVec.ofBool false)) :: .execute .fail :: [] ∧
    (idle []).cmd.held = none := by decide

/-- SetLedPlaysItsWholeFrame: the script of a whole frame, from a block that is ready. -/
theorem witness_set_led_script :
    let moves := .issue (0x10#8 ++ 0x12#8 ++ 0x34#8 ++ 0x56#8 ++ 0x3F000000#32) ::
      (playMoves 250 1000 (commandOps Cfg.default (.setLed 0x12 0x34 0x56 0x3F000000)) ++ [])
    (idle moves).cfg.legal = true ∧ (idle moves).init = .ready ∧ (idle moves).cmd.busy = false ∧
      (idle moves).cmd.held = none ∧ (idle moves).script = moves ∧ (idle moves).cfg = Cfg.default ∧
      (idle moves).now = 1000 ∧ (idle moves).cfg.dwellNs = 250 :=
  ⟨rfl, rfl, rfl, rfl, rfl, rfl, rfl, rfl⟩

/-- FailedWriteAbortsTheFrame: the frame cut before its first write, and before its last (T5, k = 1 and k = 226). -/
theorem witness_frame_cuts :
    commandOps Cfg.default (.setLed 0x12 0x34 0x56 0x3F000000) =
      [] ++ .w .data false :: (commandOps Cfg.default (.setLed 0x12 0x34 0x56 0x3F000000)).drop 1 ∧
    commandOps Cfg.default (.setLed 0x12 0x34 0x56 0x3F000000) =
      (commandOps Cfg.default (.setLed 0x12 0x34 0x56 0x3F000000)).take 416 ++ .w .clk false :: [.d] := by
  set_option maxRecDepth 16000 in exact ⟨rfl, by decide⟩

/-- DwellsTakeTheirTime, CommandInvariantIsKept: two steps of a running command. -/
theorem witness_command_run :
    CommandInv (fanRunning [.execute .ok, .issue 0]) ∧ (fanRunning [.execute .ok, .issue 0]).keepsBlockFor 2 ∧
    (∃ t, step (fanRunning [.execute .ok, .issue 0]) = .next t) ∧
    ∃ t, run 2 (fanRunning [.execute .ok, .issue 0]) = .next t :=
  ⟨fanRunning_commandInv _, by intro m hm; fin_cases hm <;> rfl, ⟨_, rfl⟩, ⟨_, rfl⟩⟩

/-- ObservationTable, TerminalTriggersEndTheSequence: a live state machine in each phase, the trigger one nanosecond
before the deadline. -/
theorem witness_live_phases :
    ((idle []).init = .ready ∧ (idle []).cfg.evDepth ≠ some (idle []).evq.length ∧ (idle []).fsm.phase = .idle) ∧
    ((pressed []).init = .ready ∧ (pressed []).cfg.evDepth ≠ some (pressed []).evq.length ∧
      (pressed []).fsm.phase = .pressed ∧ (pressed []).fsm.deadline = some 2000001000 ∧ 2000000999 < 2000001000) ∧
    ((held []).init = .ready ∧ (held []).cfg.evDepth ≠ some (held []).evq.length ∧ (held []).fsm.phase = .held) := by
  decide

/-- DeadlineEmitsHold: both ways the deadline is ready, each just at the deadline. -/
theorem witness_ready_deadline :
    ({ pressed [] with inq := [(0x01, 2000001000)] }.inq = (0x01, 2000001000) :: [] ∧ 2000001000 ≤ 2000001000) ∧
    ({ pressed [] with now := 2000001000 }.inq = [] ∧ 2000001000 ≤ { pressed [] with now := 2000001000 }.now) := by
  decide

/-- UnselectedTriggersHaveNoEffect: its three reasons, and a trigger stamped at the deadline. -/
theorem witness_unselected :
    (ended []).fsm.phase = .ended ∧ (failed []).init = .exportFailed ∧
    { pressed [] with cfg := { Cfg.default with evDepth := some 1 } }.cfg.evDepth = some (pressed []).evq.length ∧
    ((pressed []).fsm.deadline = some 2000001000 ∧ 2000001000 ≤ 2000001000) := by decide

/-- StateMachineStepSelection: no step; the deadline; the head of `inq`; and nothing to do. -/
theorem witness_step_selection :
    ((ended [.fsm]).cfg.legal = true ∧ (ended [.fsm]).script = .fsm :: [] ∧ (ended [.fsm]).fsm.phase = .ended) ∧
    ((pressed [.fsm]).fsm.phase ≠ .ended ∧ (pressed [.fsm]).cfg.evDepth ≠ some (pressed [.fsm]).evq.length ∧
      { pressed [.fsm] with inq := [(0x01, 2000001000)] }.inq = (0x01, 2000001000) :: []) ∧
    ({ pressed [.fsm] with inq := [(0x01, 2000000999)] }.inq = (0x01, 2000000999) :: [] ∧ 2000000999 < 2000001000) ∧
    ((pressed [.fsm]).inq = [] ∧ (pressed [.fsm]).now < 2000001000) := by decide

/-- The trigger of `witness_step_selection` decodes to an instruction that is not DEADLINE. -/
theorem witness_selected_trigger :
    decodeTrigger 0x01 2000000999 = .ok (.obs true 2000000999) ∧ Instr.obs true 2000000999 ≠ .deadline :=
  ⟨rfl, by decide⟩

/-- AtMostOneCodePerStep, LeavingPressedDisarmsTheDeadline, HoldIsNeverEarly: a step that emits a Hold and leaves
Pressed. -/
theorem witness_hold_step :
    let s : State := { pressed [.fsm] with inq := [(0x01, 2000001000)], now := 2000001000 }
    s.keepsBlock ∧ s.fsm.phase = .pressed ∧
    ∃ t, step s = .next t ∧ t.emitted = s.emitted ++ [.hold] ∧ t.fsm.phase ≠ .pressed :=
  ⟨keepsBlock_cons _ _ _ rfl rfl, rfl, _, rfl, rfl, by decide⟩

/-- HoldIsNeverEarly: the state of `witness_hold_step` meets the queue's invariant. -/
theorem witness_hold_queue :
    QueueInv { pressed [.fsm] with inq := [(0x01, 2000001000)], now := 2000001000 } where
  codes := by simp [queueable, decodeTrigger]
  stamps := by simp
  past := by intro e he; rw [List.mem_singleton.mp he]
  terminalLast := nofun
  drained := nofun
  capacity := nofun
  sampled := rfl
  samplePast := nofun
  edgeMode := fun _ => rfl
  pollMode := nofun

/-- EndedIsFinal. -/
theorem witness_ended_step :
    (ended [.fsm]).fsm.phase = .ended ∧ (ended [.fsm]).keepsBlock ∧ ∃ t, step (ended [.fsm]) = .next t :=
  ⟨rfl, keepsBlock_cons _ _ _ rfl rfl, _, rfl⟩

/-- EmittedCodesMatchTheGrammar, ButtonInvariantIsKept: a state machine in the middle of a press, and its step. -/
theorem witness_button_step :
    ButtonInv { pressed [.fsm] with now := 2000001000 } ∧
    ∃ t, step { pressed [.fsm] with now := 2000001000 } = .next t ∧ t.emitted = [.press, .hold] :=
  ⟨⟨rfl, rfl, rfl, List.suffix_refl _, nofun, nofun⟩, _, rfl, rfl⟩

/-- QueueInvariantIsKept: a waiting trigger, and the step that takes it. -/
theorem witness_queue_step :
    QueueInv { pressed [.fsm] with inq := [(0x01, 1000)] } ∧
    ∃ t, step { pressed [.fsm] with inq := [(0x01, 1000)] } = .next t ∧ t.inq = [] :=
  ⟨pressed_queueInv _, _, rfl, rfl⟩

/-- AppendsKeepTheObligations: an append that is admitted into the last free place, and one that comes too late. -/
theorem witness_appends :
    (∀ e ∈ (idle []).inq, e.1 ≠ 0x40 ∧ e.1 ≠ 0x80) ∧ (idle []).fsm.phase ≠ .ended ∧ 1000 = (idle []).now ∧
    (∀ n, { Cfg.default with inDepth := some 1 }.inDepth = some n → (idle []).inq.length < n) ∧
    999 ≠ (idle []).now :=
  ⟨nofun, by decide, rfl, by intro n hn; injection hn with hn; subst hn; exact Nat.one_pos, by decide⟩

/-- PolledSamples: one nanosecond early, just due with the level unchanged, and just due with the level changed. -/
theorem witness_polls :
    let p : State := { polling [.sample] with src := ⟨true, some true, some 1000, 0⟩ }
    (p.cfg.legal = true ∧ p.cfg.sourceMode = .poll ∧ p.init = .ready) ∧
    { p with now := 50000999 }.now < 1000 + p.cfg.pollIntervalNs ∧
    (1000 + p.cfg.pollIntervalNs ≤ { p with now := 50001000 }.now ∧ p.src.prev = some p.src.btnLvl) ∧
    (⟨false, some true, some 1000, 0⟩ : Source).prev = some (!(⟨false, some true, some 1000, 0⟩ : Source).btnLvl) ∧
    p.fsm.phase ≠ .ended ∧ p.inq = [] ∧ p.cfg.inDepth = none := by decide

/-- EdgesAreDelivered: a level change, and a pending edge. -/
theorem witness_edges :
    ((idle [.button false]).cfg.sourceMode = .edge ∧
      (idle [.button false]).lines.buttonPort = some ⟨.input, .both⟩ ∧
      (idle [.button false]).script = .button false :: []) ∧
    ({ idle [.edge] with src := ⟨false, none, none, 1⟩ }.script = .edge :: [] ∧
      0 < { idle [.edge] with src := ⟨false, none, none, 1⟩ }.src.pendingEdges) := by decide

/-- HostPopsTheHead: a code to pop, and none. -/
theorem witness_pops :
    ((pressed [.popEvent]).script = .popEvent :: [] ∧ (pressed [.popEvent]).cfg.legal = true ∧
      (pressed [.popEvent]).evq = .press :: []) ∧
    (idle [.popEvent]).evq = [] := by decide

/-- ClockIsMonotonic: a step that moves the clock. -/
theorem witness_clock : ∃ t, step (idle [.clock 2000]) = .next t ∧ t.now ≠ (idle [.clock 2000]).now :=
  ⟨_, rfl, by decide⟩

end Sys2Proof.Tests
end

section
/-!
PROOFS. Family `00_scope.md`: illegal configuration records (R8), and what no step writes (R6, R24, R32, R38).
-/

namespace Sys2Proof.Machine

/-! ### Illegal records (R8) -/

/-- A bounded queue has a place; an unbounded one has no bound to check (R6). -/
theorem legalDepth_iff (d : Option Nat) : legalDepth d = true ↔ ∀ n, d = some n → 1 ≤ n := by
  cases d <;> simp [legalDepth]

/-- The ranges of R6. -/
theorem Cfg.legal_iff (c : Cfg) : c.legal = true ↔
    (32 ≤ c.startPulses ∧ c.startPulses ≤ 36) ∧ (32 ≤ c.endPulses ∧ c.endPulses ≤ 255) ∧ 250 ≤ c.dwellNs ∧
    1 ≤ c.holdTimeNs ∧ 1 ≤ c.pollIntervalNs ∧ (∀ n, c.inDepth = some n → 1 ≤ n) ∧
    (∀ n, c.evDepth = some n → 1 ≤ n) := by
  simp only [Cfg.legal, Bool.and_eq_true, decide_eq_true_eq, legalDepth_iff, and_assoc]

/-- The construction of an illegal record is refused. -/
theorem State.construct_of_illegal (s : State) {c : Cfg} (a : ExportAnswers) (hc : c.legal = false) :
    s.construct c a = .refused .illegalConfig := by
  simp [State.construct, hc]

/-- So is every step of a block that holds one. -/
theorem step_of_illegal {s : State} (hc : s.cfg.legal = false) : step s = .refused .illegalConfig := by
  simp [step, Block.stepWith, hc]

/-- Settles O4: the ranges are a conjunction of Booleans, and both refusals are the first test made. -/
theorem illegalConfigurationIsRefused : Obligations.IllegalConfigurationIsRefused :=
  ⟨Cfg.legal_iff, fun s _ a hc => s.construct_of_illegal a hc, fun _ hc => step_of_illegal hc⟩

/-! ### What no step writes (R6, R24, R32, R38) -/

/-- A mapped outcome that is a next state comes from a next state. -/
theorem mapNext_eq_next {α β : Type} {f : α → β} {o : Host.Outcome α Fault Refusal} {b : β}
    (h : mapNext f o = .next b) : ∃ a, o = .next a ∧ f a = b := by
  cases o with
  | next a => exact ⟨a, rfl, Host.Outcome.next.inj h⟩
  | fault r => cases h
  | refused r => cases h

/-- A step is the step relation on the state without its configuration, which it puts back beside the result (R6). -/
theorem step_stepWith {s t : State} (h : step s = .next t) :
    s.toBlock.stepWith s.cfg = .next t.toBlock ∧ t.cfg = s.cfg := by
  obtain ⟨b, hb, rfl⟩ := mapNext_eq_next h
  exact ⟨hb, rfl⟩

/-- A step that answers a next state is the move at the head of the script. -/
theorem takeMove_of_step {s t : State} (h : step s = .next t) {m : Move} {rest : List Move}
    (hs : s.script = m :: rest) : State.takeMove { s with script := rest } m = .next t :=
  (step_of_script (step_next h).1 hs).symm.trans h

/-- Only a construction writes `init` (R24). -/
theorem Effect.init_eq {s t : State} {m : Move} (h : Effect s m t) (hm : m.isConstruct = false) :
    t.init = s.init := by
  cases h with
  | idle | hold | popEvent | clock | button | append | edge | sample | sampleAppend | holdEvent | terminal => rfl
  | rejectWord _ _ b _ hb => rcases hb with rfl | rfl <;> rfl
  | beginCommand _ _ b _ hb => rcases hb with rfl | rfl <;> rfl
  | execute a => exact s.execStep_init a
  | observe => rw [State.observe_frame]
  | construct => cases hm

/-- Only a construction writes a line's direction or edge sensing (R38). -/
theorem Effect.ports_eq {s t : State} {m : Move} (h : Effect s m t) (hm : m.isConstruct = false) :
    t.lines.fanPort = s.lines.fanPort ∧ t.lines.dataPort = s.lines.dataPort ∧
    t.lines.clkPort = s.lines.clkPort ∧ t.lines.buttonPort = s.lines.buttonPort := by
  cases h with
  | execute a => exact s.execStep_ports a
  | idle | hold | popEvent | clock | button | append | edge | sample | sampleAppend | holdEvent | terminal =>
    exact ⟨rfl, rfl, rfl, rfl⟩
  | rejectWord _ _ b _ hb => rcases hb with rfl | rfl <;> exact ⟨rfl, rfl, rfl, rfl⟩
  | beginCommand _ _ b _ hb => rcases hb with rfl | rfl <;> exact ⟨rfl, rfl, rfl, rfl⟩
  | observe => rw [State.observe_frame]; exact ⟨rfl, rfl, rfl, rfl⟩
  | construct => cases hm

/-- A step of a block that constructs nothing leaves `init` and the four ports (R24, R38). -/
theorem step_keeps_init_and_ports {s t : State} (h : step s = .next t) (hk : s.keepsBlock) :
    t.init = s.init ∧ t.lines.fanPort = s.lines.fanPort ∧ t.lines.dataPort = s.lines.dataPort ∧
    t.lines.clkPort = s.lines.clkPort ∧ t.lines.buttonPort = s.lines.buttonPort := by
  obtain ⟨-, ⟨-, rfl⟩ | ⟨m, rest, hs, he⟩⟩ := step_effect h
  · exact ⟨rfl, rfl, rfl, rfl, rfl⟩
  · exact ⟨he.init_eq (hk m rest hs), he.ports_eq (hk m rest hs)⟩

/-- Settles O5: `step` is the step relation put back under the instance's configuration, which hides no write of a move,
because no effect writes it; every effect but a construction leaves `init` and the ports. -/
theorem configurationInitAndPortsAreFixed : Obligations.ConfigurationInitAndPortsAreFixed := by
  intro s t h
  obtain ⟨hstep, hcfg⟩ := step_stepWith h
  exact ⟨hstep, hcfg, fun _ _ => takeMove_of_step h, step_keeps_init_and_ports h⟩

end Sys2Proof.Machine
end

section
/-!
PROOFS. Family `10_state.md`: the three invariants and the steps that keep them (R19, R22 to R30, R38, R49, R53, R93,
R116 to R120), the result records (R23), the clock (R31), the output lines (R19), reset (R36), and the host's pop (R30).
-/

namespace Sys2Proof.Machine

/-! ### From effects to steps -/

/-- An invariant that does not look at the script, and that every effect keeps, is kept by every step. -/
theorem step_keeps {I : State → Prop} (hscript : ∀ {s : State} (rest : List Move), I s → I { s with script := rest })
    (heffect : ∀ {s t : State} {m : Move}, I s → Effect s m t → I t) {s t : State} (hs : I s)
    (h : step s = .next t) : I t := by
  obtain ⟨-, ⟨-, rfl⟩ | ⟨m, rest, -, he⟩⟩ := step_effect h
  · exact hs
  · exact heffect (hscript rest hs) he

/-! ### The invariant of the command path (R19, R22 to R25, R49, R93) -/

/-- The level after a longer trace is that which its end leaves on what its beginning left. -/
theorem levelAfter_append (l : OutLine) (v : Level) (xs ys : List TraceItem) :
    levelAfter l v (xs ++ ys) = levelAfter l (levelAfter l v xs) ys := by
  induction xs generalizing v with
  | nil => rfl
  | cons x xs ih => cases x <;> exact ih _

/-- Every host command has a line primitive to perform (R83, R97). -/
theorem commandOps_isEmpty (c : Cfg) {i : Instr} (hi : i.isCommand = true) : (commandOps c i).isEmpty = false := by
  cases i with
  | setLed | setFan => rfl
  | _ => cases hi

/-- The output lines' numbers are those a LINE_WRITE_FAILURE may carry (R68). -/
theorem lineWriteFailure_wf (l : OutLine) : Res.wf ⟨.lineWriteFailure, l.number⟩ = true := by cases l <;> rfl

/-- The clauses of `CommandInv` that hold also in the middle of a step, between a primitive's effect on the lines and
the trace and its removal from `enc_ops`. -/
structure HistoryInv (s : State) : Prop where
  /-- R8 -/
  config : s.cfg.legal = true
  /-- R23: `res` is the record of the last completed command. -/
  lastResult : s.cmd.res = s.cmd.results.getLastD ⟨.ok, 0⟩
  /-- R23, R68 -/
  resultWf : ∀ r ∈ s.cmd.results, r.wf = true
  /-- R24, R122, without the clause on `busy`: a result sets it. -/
  failed : s.init = .exportFailed → s.cmd.trace = [] ∧ ∀ l, s.lines.level l = .unknown
  /-- R19, R91 -/
  levels : s.init = .ready → ∀ l, s.lines.level l = levelAfter l l.defaultLevel s.cmd.trace
  /-- R38 -/
  ports : s.init = .ready → s.lines.fanPort = some ⟨.output, .none⟩ ∧ s.lines.dataPort = some ⟨.output, .none⟩ ∧
    s.lines.clkPort = some ⟨.output, .none⟩ ∧ s.lines.buttonPort = some ⟨.input, buttonEdges s.cfg⟩
  /-- R93 -/
  dwell : s.cmd.dwellFrom ≤ s.now

/-- Between two steps the clauses on the histories hold too. -/
theorem CommandInv.history {s : State} (h : CommandInv s) : HistoryInv s :=
  { h with failed := fun hi => (h.failed hi).2 }

/-- A command runs only in a block that is ready (R24). -/
theorem CommandInv.ready {s : State} (h : CommandInv s) (hb : s.cmd.busy = true) : s.init = .ready := by
  cases hi : s.init with
  | ready => rfl
  | exportFailed => rw [(h.failed hi).1] at hb; cases hb

/-- The invariant sees only the configuration, `init`, the lines, the command path without its held word, and that the
clock does not go back. -/
theorem CommandInv.congr {s t : State} (h : CommandInv s) (hcfg : t.cfg = s.cfg) (hinit : t.init = s.init)
    (hlines : t.lines = s.lines) (hcmd : ∃ w, t.cmd = { s.cmd with held := w }) (hnow : s.now ≤ t.now) :
    CommandInv t := by
  obtain ⟨⟨init, lines, cmd, _, _, _, _, _, now, _⟩, cfg⟩ := t
  obtain rfl : cfg = s.cfg := hcfg
  obtain rfl : init = s.init := hinit
  obtain rfl : lines = s.lines := hlines
  obtain ⟨w, rfl⟩ : ∃ w, cmd = { s.cmd with held := w } := hcmd
  exact { h with dwell := h.dwell.trans hnow }

/-- A write in a block that is ready leaves on its line what the trace's last write says (R19). -/
theorem HistoryInv.lineWrite {s : State} (h : HistoryInv s) (ready : s.init = .ready) (l : OutLine) (v : Bool)
    (a : Answer) : HistoryInv (s.lineWrite l v a) where
  config := h.config
  lastResult := h.lastResult
  resultWf := h.resultWf
  failed hi := by cases ready.symm.trans hi
  levels _ k := by simp [levelAfter_append, levelAfter, h.levels ready]
  ports _ := by simpa using h.ports ready
  dwell := le_refl s.now

/-- A dwell moves no line (R93). -/
theorem HistoryInv.dwellDone {s : State} (h : HistoryInv s) (ready : s.init = .ready) : HistoryInv s.dwellDone where
  config := h.config
  lastResult := h.lastResult
  resultWf := h.resultWf
  failed hi := by cases ready.symm.trans hi
  levels _ k := by simp [levelAfter_append, levelAfter, h.levels ready]
  ports := h.ports
  dwell := le_refl s.now

/-- A legal result ends the command, and the port is free (R22, R23). -/
theorem HistoryInv.result {s : State} (h : HistoryInv s) {c : ResCode} {l : BitVec 5}
    (hw : Res.wf ⟨c, l⟩ = true) : CommandInv (s.result c l) where
  config := h.config
  running := rfl
  loaded := rfl
  current i hi := by cases hi
  lastResult := by simp
  resultWf r hr := by
    rcases List.mem_append.mp hr with hr | hr
    · exact h.resultWf r hr
    · rw [List.mem_singleton.mp hr]; exact hw
  failed hi := ⟨rfl, h.failed hi⟩
  levels := h.levels
  ports := h.ports
  dwell := h.dwell

/-- A command that begins has all its primitives before it (R88, R97). -/
theorem CommandInv.begin {s : State} (h : CommandInv s) (ready : s.init = .ready) {i : Instr}
    (hi : i.isCommand = true) : CommandInv (s.begin i (commandOps s.cfg i)) where
  config := h.config
  running := rfl
  loaded := by simp [commandOps_isEmpty _ hi]
  current j hj := by
    obtain rfl : i = j := Option.some.inj hj
    exact ⟨hi, [], s.cmd.trace, rfl, (List.append_nil _).symm⟩
  lastResult := h.lastResult
  resultWf := h.resultWf
  failed hf := by cases ready.symm.trans hf
  levels := h.levels
  ports := h.ports
  dwell := le_refl s.now

/-- A primitive performed well moves from what remains to what the trace ends with (R49, R89): `u` is the state after
its effect on the lines and the trace. -/
theorem CommandInv.finishPrim {s u : State} {p : Prim} {rest : List Prim} (h : CommandInv s)
    (hb : s.cmd.busy = true) (ho : s.cmd.encOps = p :: rest) (hu : HistoryInv u) (hcfg : u.cfg = s.cfg)
    (hinit : u.init = s.init) (hbusy : u.cmd.busy = s.cmd.busy) (hcur : u.cmd.cur = s.cmd.cur)
    (htrace : u.cmd.trace = s.cmd.trace ++ [p.traced s.cfg.dwellNs]) : CommandInv (u.finishPrim rest) := by
  cases rest with
  | nil => exact hu.result rfl
  | cons q rest =>
    exact
      { hu with
        running := hbusy.trans (h.running.trans (congrArg _ hcur.symm))
        loaded := hbusy.trans hb
        current := fun i hi => by
          obtain ⟨hc, done, before, hops, htr⟩ := h.current i (hcur.symm.trans hi)
          refine ⟨hc, done ++ [p], before, ?_, ?_⟩
          · rw [State.finishPrim_cons, hcfg, hops, ho]; simp
          · rw [State.finishPrim_cons, hcfg, htrace, htr]; simp
        failed := fun hi => by cases (hinit.trans (h.ready hb)).symm.trans hi }

/-- The executor's step keeps the invariant (R89 to R93). -/
theorem CommandInv.execStep {s : State} (h : CommandInv s) (a : Answer) : CommandInv (s.execStep a) := by
  rcases s.execStep_cases a with he | ⟨hb, rest, ho, -, he⟩ | ⟨hb, l, v, rest, ho, -, he⟩ |
    ⟨hb, l, v, rest, ho, -, he⟩ <;> rw [he]
  · exact h
  · exact h.finishPrim hb ho (h.history.dwellDone (h.ready hb)) rfl rfl rfl rfl rfl
  · exact h.finishPrim hb ho (h.history.lineWrite (h.ready hb) l v .ok) rfl rfl rfl rfl rfl
  · exact (h.history.lineWrite (h.ready hb) l v .fail).result (lineWriteFailure_wf l)

/-- A block just constructed that is ready has every line exported and at its default (R38, R145). -/
theorem State.construct_ready_lines {s t : State} {c : Cfg} {a : ExportAnswers} (h : s.construct c a = .next t)
    (hi : t.init = .ready) : t.lines = ⟨.high, .low, .low, some ⟨.output, .none⟩, some ⟨.output, .none⟩,
      some ⟨.output, .none⟩, some ⟨.input, buttonEdges c⟩⟩ := by
  obtain ⟨-, rfl⟩ := State.construct_next h
  rcases exportAll_cases c a with he | ⟨p, q, r, he⟩
  · simp [he]
  · simp [he] at hi

/-- After a failed construction no level is known and the button line, the last, is not exported (R145, R146). -/
theorem State.construct_failed_lines {s t : State} {c : Cfg} {a : ExportAnswers} (h : s.construct c a = .next t)
    (hi : t.init = .exportFailed) : ∃ p q r, t.lines = ⟨.unknown, .unknown, .unknown, p, q, r, none⟩ := by
  obtain ⟨-, rfl⟩ := State.construct_next h
  rcases exportAll_cases c a with he | ⟨p, q, r, he⟩
  · simp [he] at hi
  · exact ⟨p, q, r, by simp [he]⟩

/-- A construction under a legal configuration meets the invariant, whatever the block did before (R24, R38, R144). -/
theorem commandInv_of_construct {s t : State} {c : Cfg} {a : ExportAnswers} (h : s.construct c a = .next t) :
    CommandInv t := by
  have hready := State.construct_ready_lines h
  have hfailed := State.construct_failed_lines h
  obtain ⟨hc, rfl⟩ := State.construct_next h
  refine
    { config := hc, running := rfl, loaded := rfl, current := nofun, lastResult := rfl, resultWf := nofun
      failed := fun hi => ⟨rfl, rfl, fun l => ?_⟩, levels := fun hi l => ?_, ports := fun hi => ?_
      dwell := le_refl s.now }
  · obtain ⟨p, q, r, hl⟩ := hfailed hi
    rw [hl]
    cases l <;> rfl
  · rw [hready hi]
    cases l <;> rfl
  · rw [hready hi]
    exact ⟨rfl, rfl, rfl, rfl⟩

/-- The port's letting go of its word changes nothing the invariant sees (R142). -/
theorem CommandInv.unheld {s b : State} (h : CommandInv s) (hb : b = s ∨ b = s.unhold) : CommandInv b := by
  rcases hb with rfl | rfl
  · exact h
  · exact h.congr rfl rfl rfl ⟨_, rfl⟩ le_rfl

/-- Every effect keeps the invariant of the command path. -/
theorem CommandInv.effect {s t : State} {m : Move} (h : CommandInv s) (he : Effect s m t) : CommandInv t := by
  cases he with
  | idle => exact h
  | hold | popEvent | button | append | edge | sample | sampleAppend | holdEvent | terminal =>
    exact h.congr rfl rfl rfl ⟨_, rfl⟩ le_rfl
  | clock τ hτ => exact h.congr rfl rfl rfl ⟨_, rfl⟩ hτ
  | observe =>
    rw [State.observe_frame]
    exact h.congr rfl rfl rfl ⟨_, rfl⟩ le_rfl
  | rejectWord _ _ b c hb _ hc =>
    exact (h.unheld hb).history.result (by rcases hc with ⟨rfl, -⟩ | ⟨rfl, -⟩ <;> rfl)
  | beginCommand _ _ b i hb _ ready hi =>
    have hbInv := h.unheld hb
    rcases hb with rfl | rfl <;> exact hbInv.begin ready hi
  | execute a => exact h.execStep a
  | construct a _ hc => exact commandInv_of_construct hc

/-- Settles O57: every effect keeps the invariant; the executor's keeps it through `HistoryInv`, which holds also between
a primitive's effect and its removal from `enc_ops`. -/
theorem commandInvariantIsKept : Obligations.CommandInvariantIsKept := fun _ _ =>
  step_keeps (fun _ h => h.congr rfl rfl rfl ⟨_, rfl⟩ le_rfl) CommandInv.effect

/-! ### The invariant of the button path (R26, R27, R30, R53, R120) -/

/-- When the state machine may step (R103). -/
theorem State.fsmLive_iff (s : State) :
    s.fsmLive = true ↔ s.fsm.phase ≠ .ended ∧ s.init = .ready ∧ s.cfg.evDepth ≠ some s.evq.length := by
  simp [State.fsmLive, State.evqFull, and_assoc]

/-- A deadline is ready only in phase Pressed (R103). -/
theorem State.pressed_of_deadlineReady {s : State} (h : s.deadlineReady = true) : s.fsm.phase = .pressed := by
  have hby : ∀ τ, s.deadlineBy τ = true → s.fsm.phase = .pressed := fun τ hτ => by
    simp only [State.deadlineBy, Bool.and_eq_true, decide_eq_true_eq] at hτ
    exact hτ.1
  unfold State.deadlineReady at h
  split at h <;> exact hby _ h

/-- The phase after one more event (R120). -/
theorem phaseAfter_concat (es : List Event) (e : Event) : phaseAfter (es ++ [e]) = (phaseAfter es).bind (·.after e) := by
  simp [phaseAfter]

/-- From every phase but Ended both end markers lead to Ended (R111, R112). -/
theorem Phase.after_endMarker {p : Phase} (hp : p ≠ .ended) {e : Event} (he : e = .seqEnd ∨ e = .timerFailure) :
    p.after e = some .ended := by
  cases p with
  | ended => exact absurd rfl hp
  | idle | pressed | held => rcases he with rfl | rfl <;> rfl

/-- The invariant sees only the configuration, `init`, the state machine and its output. -/
theorem ButtonInv.congr {s t : State} (h : ButtonInv s) (hcfg : t.cfg = s.cfg) (hinit : t.init = s.init)
    (hfsm : t.fsm = s.fsm) (hevq : t.evq = s.evq) (hemitted : t.emitted = s.emitted) : ButtonInv t := by
  obtain ⟨⟨init, _, _, fsm, _, _, evq, emitted, _, _⟩, cfg⟩ := t
  obtain rfl : cfg = s.cfg := hcfg
  obtain rfl : init = s.init := hinit
  obtain rfl : fsm = s.fsm := hfsm
  obtain rfl : evq = s.evq := hevq
  obtain rfl : emitted = s.emitted := hemitted
  exact { h with }

/-- A live state machine may emit any event its phase allows, and take on the phase that follows it (R30, R120). -/
theorem ButtonInv.emit {s : State} (h : ButtonInv s) (live : s.fsmLive = true) {e : Event} {f : Fsm}
    (hphase : s.fsm.phase.after e = some f.phase) (armed : f.deadline.isSome = decide (f.phase = .pressed))
    (reason : f.endKind.isSome = decide (f.phase = .ended)) : ButtonInv { s.emit e with fsm := f } := by
  obtain ⟨-, ready, room⟩ := s.fsmLive_iff.mp live
  refine { armed, reason, history := ?_, queued := ?_, depth := ?_, failed := ?_ }
  · simp [phaseAfter_concat, h.history, hphase]
  · obtain ⟨popped, hp⟩ := h.queued
    exact ⟨popped, by simp [← hp]⟩
  · intro n hn
    have hle : s.evq.length ≤ n := h.depth n hn
    have hne : s.evq.length ≠ n := fun hl => room (hl ▸ hn)
    simpa using Nat.lt_of_le_of_ne hle hne
  · intro hi; cases ready.symm.trans hi

/-- A state machine that has not ended has recorded no reason (R27). -/
theorem ButtonInv.endKind_of_ne_ended {s : State} (h : ButtonInv s) (hp : s.fsm.phase ≠ .ended) :
    s.fsm.endKind = none := by
  simpa [hp] using h.reason

/-- A live state machine may move from one live phase to another, and emit the event between them. -/
theorem ButtonInv.setPhase {s : State} (h : ButtonInv s) (live : s.fsmLive = true) {e : Event} {p : Phase}
    {d : Option Time} (hphase : s.fsm.phase.after e = some p) (hp : p ≠ .ended)
    (armed : d.isSome = decide (p = .pressed)) : ButtonInv ((s.emit e).setPhase p d) :=
  h.emit live hphase armed (by simp [hp, h.endKind_of_ne_ended (s.fsmLive_iff.mp live).1])

/-- An observation keeps the invariant (R105 to R110). -/
theorem ButtonInv.observe {s : State} (h : ButtonInv s) (live : s.fsmLive = true) (v : Bool) (t : Time) :
    ButtonInv (s.observe v t) := by
  rcases s.observe_cases v t with ho | ⟨hp, ho⟩ | ⟨hp, ho⟩ | ⟨hp, ho⟩ <;> rw [ho]
  · exact h
  · exact h.setPhase live (by rw [hp]; rfl) nofun rfl
  · exact h.setPhase live (by rw [hp]; rfl) nofun rfl
  · exact h.setPhase live (by rw [hp]; rfl) nofun (by simp [h.armed, hp])

/-- The host's pop keeps the invariant (R30). -/
theorem ButtonInv.popEvent {s : State} (h : ButtonInv s) : ButtonInv s.popEvent :=
  { h with
    queued := (List.tail_suffix _).trans h.queued
    depth := fun n hn => by
      have hle : s.evq.length ≤ n := h.depth n hn
      simp only [State.popEvent_evq, List.length_tail]
      omega }

/-- A construction meets the invariant (R36). -/
theorem buttonInv_of_construct {s t : State} {c : Cfg} {a : ExportAnswers} (h : s.construct c a = .next t) :
    ButtonInv t := by
  obtain ⟨-, rfl⟩ := State.construct_next h
  exact
    { armed := rfl, reason := rfl, history := rfl, queued := List.suffix_rfl, depth := fun n _ => Nat.zero_le n
      failed := fun _ => ⟨rfl, rfl⟩ }

/-- Every effect keeps the invariant of the button path. -/
theorem ButtonInv.effect {s t : State} {m : Move} (h : ButtonInv s) (he : Effect s m t) : ButtonInv t := by
  cases he with
  | idle => exact h
  | hold | clock | button | append | edge | sample | sampleAppend => exact h.congr rfl rfl rfl rfl rfl
  | rejectWord _ _ b _ hb => rcases hb with rfl | rfl <;> exact h.congr rfl rfl rfl rfl rfl
  | beginCommand _ _ b _ hb => rcases hb with rfl | rfl <;> exact h.congr rfl rfl rfl rfl rfl
  | execute a => exact h.congr (by simp) (by simp) (by simp) (by simp) (by simp)
  | popEvent => exact h.popEvent
  | holdEvent live ready =>
    exact h.setPhase live (by rw [State.pressed_of_deadlineReady ready]; rfl) nofun rfl
  | observe live _ v τ rest =>
    exact ButtonInv.observe (s := { s with inq := rest }) (h.congr rfl rfl rfl rfl rfl) live v τ
  | terminal live _ c τ rest _ e k hc =>
    have hmarker : e = .seqEnd ∨ e = .timerFailure := by
      rcases hc with ⟨-, rfl, -⟩ | ⟨-, rfl, -⟩
      exacts [.inl rfl, .inr rfl]
    exact ButtonInv.emit (s := { s with inq := rest }) (h.congr rfl rfl rfl rfl rfl) live
      (Phase.after_endMarker (s.fsmLive_iff.mp live).1 hmarker) rfl rfl
  | construct a _ hc => exact buttonInv_of_construct hc

/-- Settles O58: every effect keeps the invariant; each that emits a code does so in a live phase whose successor under
that code (`Phase.after`) is the phase it sets. -/
theorem buttonInvariantIsKept : Obligations.ButtonInvariantIsKept := fun _ _ =>
  step_keeps (fun _ h => h.congr rfl rfl rfl rfl rfl) ButtonInv.effect

/-! ### The invariant of the trigger queue and the level source (R28, R29, R116, R117, R119) -/

/-- The invariant sees the queue, its source, the button's port, whether the phase is Ended, and that the clock does not
go back. -/
theorem QueueInv.congr {s t : State} (h : QueueInv s) (hcfg : t.cfg = s.cfg)
    (hport : t.lines.buttonPort = s.lines.buttonPort) (hsrc : t.src = s.src) (hinq : t.inq = s.inq)
    (hphase : t.fsm.phase = .ended → s.fsm.phase = .ended) (hnow : s.now ≤ t.now) : QueueInv t := by
  have hsense : t.edgeSensing = s.edgeSensing := by simp [State.edgeSensing, hport]
  obtain ⟨⟨_, lines, _, fsm, src, inq, _, _, now, _⟩, cfg⟩ := t
  obtain rfl : cfg = s.cfg := hcfg
  obtain rfl : src = s.src := hsrc
  obtain rfl : inq = s.inq := hinq
  exact
    { h with
      past := fun e he => (h.past e he).trans hnow
      drained := fun hp => h.drained (hphase hp)
      samplePast := fun τ hτ => (h.samplePast τ hτ).trans hnow
      pollMode := fun hm => ⟨hsense.trans (h.pollMode hm).1, (h.pollMode hm).2⟩ }

/-- What stands when no terminal trigger has been seen (R119 (c)). -/
theorem State.terminalSeen_eq_false {s : State} (h : s.terminalSeen = false) :
    s.fsm.phase ≠ .ended ∧ ∀ e ∈ s.inq, terminalCode e.1 = false := by
  simpa [State.terminalSeen] using h

/-- A queue that is not full has a place (R29). -/
theorem State.length_lt_of_not_inqFull {s : State} (h : s.inqFull = false) {n : Nat} (hn : s.cfg.inDepth = some n) :
    s.inq.length < n := by
  simpa [State.inqFull, hn] using h

/-- An admitted append keeps the invariant (R29, R119). -/
theorem QueueInv.enqueue {s : State} (h : QueueInv s) {c : TrigCode} (hq : queueable c = true)
    (ht : s.terminalSeen = false) (hf : s.inqFull = false) : QueueInv (s.enqueue c s.now) := by
  obtain ⟨hphase, hcodes⟩ := State.terminalSeen_eq_false ht
  have hmem : ∀ e ∈ s.inq ++ [(c, s.now)], e ∈ s.inq ∨ e = (c, s.now) := fun e he => by simpa using he
  exact
    { h with
      codes := fun e he => (hmem e he).elim (h.codes e) (fun hl => hl ▸ hq)
      stamps := by
        simpa [List.pairwise_append, h.stamps] using fun τ c' he => h.past (c', τ) he
      past := fun e he => (hmem e he).elim (h.past e) (fun hl => hl ▸ le_refl s.now)
      terminalLast := by simpa using fun c' τ he => hcodes (c', τ) he
      drained := fun hp => absurd hp hphase
      capacity := fun n hn => by simpa using State.length_lt_of_not_inqFull hf hn }

/-- Taking the head keeps the invariant (R103). -/
theorem QueueInv.dequeue {s : State} (h : QueueInv s) {e : TrigCode × Time} {rest : List (TrigCode × Time)}
    (hq : s.inq = e :: rest) : QueueInv { s with inq := rest } :=
  have hsub : ∀ x ∈ rest, x ∈ s.inq := fun x hx => hq ▸ List.mem_cons_of_mem e hx
  { h with
    codes := fun x hx => h.codes x (hsub x hx)
    stamps := by
      have hs := h.stamps
      rw [hq, List.map_cons] at hs
      exact hs.of_cons
    past := fun x hx => h.past x (hsub x hx)
    terminalLast := fun x hx => h.terminalLast x (by
      rw [hq, List.dropLast_cons_of_ne_nil (List.ne_nil_of_mem (List.mem_of_mem_dropLast hx))]
      exact List.mem_cons_of_mem e hx)
    drained := fun hp => by cases hq.symm.trans (h.drained hp)
    capacity := fun n hn => by
      have hlen := h.capacity n hn
      rw [hq, List.length_cons] at hlen
      exact (Nat.le_succ _).trans hlen }

/-- Behind a terminal trigger the queue is empty (R119 (c)). -/
theorem QueueInv.rest_of_terminal {s : State} (h : QueueInv s) {c : TrigCode} {τ : Time}
    {rest : List (TrigCode × Time)} (hq : s.inq = (c, τ) :: rest) (hc : terminalCode c = true) : rest = [] := by
  cases rest with
  | nil => rfl
  | cons e rest =>
    have hf : terminalCode c = false := h.terminalLast (c, τ) (by simp [hq])
    cases hf.symm.trans hc

/-- An observation does not end the state machine (R105 to R110). -/
theorem State.observe_phase_ne_ended {s : State} (hp : s.fsm.phase ≠ .ended) (v : Bool) (t : Time) :
    (s.observe v t).fsm.phase ≠ .ended := by
  rcases s.observe_cases v t with ho | ⟨-, ho⟩ | ⟨-, ho⟩ | ⟨-, ho⟩ <;> rw [ho]
  · exact hp
  all_goals exact nofun

/-- In POLL mode the button line senses no edges, so its moves leave none pending (R116). -/
theorem QueueInv.moveButton {s : State} (h : QueueInv s) (v : Bool) : QueueInv (s.moveButton v) :=
  { h with
    pollMode := fun hm => by
      obtain ⟨hsense, hnone⟩ := h.pollMode hm
      exact ⟨hsense, by simpa [State.moveButton, hsense] using hnone⟩ }

/-- Taking a pending edge keeps the invariant (R116). -/
theorem QueueInv.takeEdge {s : State} (h : QueueInv s) : QueueInv s.takeEdge :=
  { h with pollMode := fun hm => ⟨(h.pollMode hm).1, by simp [(h.pollMode hm).2]⟩ }

/-- A sample is taken now, and in POLL mode only (R28, R117). -/
theorem QueueInv.takeSample {s : State} (h : QueueInv s) (hm : s.cfg.sourceMode = .poll) : QueueInv s.takeSample :=
  { h with
    sampled := rfl
    samplePast := fun _ hτ => (Option.some.inj hτ).symm.le
    edgeMode := fun he => by cases hm.symm.trans he }

/-- In POLL mode a construction leaves the button line without edge sensing, exported or not (R38, R145). -/
theorem State.construct_edgeSensing {s t : State} {c : Cfg} {a : ExportAnswers} (h : s.construct c a = .next t)
    (hm : c.sourceMode = .poll) : t.edgeSensing = false := by
  cases hi : t.init with
  | ready => simp [State.edgeSensing, State.construct_ready_lines h hi, buttonEdges, hm]
  | exportFailed =>
    obtain ⟨p, q, r, hl⟩ := State.construct_failed_lines h hi
    simp [State.edgeSensing, hl]

/-- A construction meets the invariant (R36). -/
theorem queueInv_of_construct {s t : State} {c : Cfg} {a : ExportAnswers} (h : s.construct c a = .next t) :
    QueueInv t := by
  have hsense := State.construct_edgeSensing h
  obtain ⟨-, rfl⟩ := State.construct_next h
  exact
    { codes := nofun, stamps := .nil, past := nofun, terminalLast := nofun, drained := fun _ => rfl
      capacity := fun n _ => Nat.zero_le n, sampled := rfl, samplePast := nofun, edgeMode := fun _ => rfl
      pollMode := fun hm => ⟨hsense hm, rfl⟩ }

/-- Every effect keeps the invariant of the trigger queue and the level source. -/
theorem QueueInv.effect {s t : State} {m : Move} (h : QueueInv s) (he : Effect s m t) : QueueInv t := by
  cases he with
  | idle => exact h
  | hold | popEvent => exact h.congr rfl rfl rfl rfl id le_rfl
  | rejectWord _ _ b _ hb => rcases hb with rfl | rfl <;> exact h.congr rfl rfl rfl rfl id le_rfl
  | beginCommand _ _ b _ hb => rcases hb with rfl | rfl <;> exact h.congr rfl rfl rfl rfl id le_rfl
  | execute a =>
    obtain ⟨-, -, -, hport⟩ := s.execStep_ports a
    exact h.congr (by simp) hport (by simp) (by simp) (by simp) (by simp)
  | clock τ hτ => exact h.congr rfl rfl rfl rfl id hτ
  | holdEvent => exact h.congr rfl rfl rfl rfl nofun le_rfl
  | observe live _ v τ rest hq =>
    have hp := State.observe_phase_ne_ended (s := { s with inq := rest }) (s.fsmLive_iff.mp live).1 v τ
    rw [State.observe_frame] at hp ⊢
    exact (h.dequeue hq).congr rfl rfl rfl rfl (fun he => absurd he hp) le_rfl
  | terminal _ _ c τ rest hq e k hc =>
    have hrest : rest = [] := h.rest_of_terminal hq (by rcases hc with ⟨rfl, -⟩ | ⟨rfl, -⟩ <;> rfl)
    exact { h.dequeue hq with drained := fun _ => hrest }
  | button v => exact h.moveButton v
  | append c hq ht hf => exact h.enqueue hq ht hf
  | edge _ _ ht hf => exact h.takeEdge.enqueue (queueable_obsCode _) ht hf
  | sample hm => exact h.takeSample hm
  | sampleAppend hm ht hf => exact (h.takeSample hm).enqueue (queueable_obsCode _) ht hf
  | construct a _ hc => exact queueInv_of_construct hc

/-- Settles O59: every effect keeps the invariant, the appends because each has made the checks of R29 and R119. -/
theorem queueInvariantIsKept : Obligations.QueueInvariantIsKept := fun _ _ =>
  step_keeps (fun _ h => h.congr rfl rfl rfl rfl id le_rfl) QueueInv.effect

/-! ### Results (R22, R23) -/

/-- From `s` to `t` no result is written, and a running command stays the one it is. -/
def KeepsCommand (s t : State) : Prop :=
  t.cmd.results = s.cmd.results ∧ t.cmd.res = s.cmd.res ∧ (s.cmd.busy = true → t.cmd.cur = s.cmd.cur)

/-- From `s` to `t` one legal result is written, and no command runs after it. -/
def EndsCommand (s t : State) : Prop :=
  t.cmd.results = s.cmd.results ++ [t.cmd.res] ∧ t.cmd.res.wf = true ∧ t.cmd.busy = false ∧ t.cmd.cur = none ∧
    t.cmd.encOps = []

/-- A result ends the command (R23). -/
theorem endsCommand_result (s : State) {c : ResCode} {l : BitVec 5} (hw : Res.wf ⟨c, l⟩ = true) :
    EndsCommand s (s.result c l) := ⟨rfl, hw, rfl, rfl, rfl⟩

/-- A primitive performed well ends the command when it is the last (R89, R92). -/
theorem State.finishPrim_command (s : State) (rest : List Prim) :
    KeepsCommand s (s.finishPrim rest) ∨ EndsCommand s (s.finishPrim rest) := by
  cases rest with
  | nil => exact .inr (endsCommand_result s rfl)
  | cons p rest => exact .inl ⟨rfl, rfl, fun _ => rfl⟩

/-- Every effect but a construction keeps the command or ends it. -/
theorem Effect.command {s t : State} {m : Move} (h : Effect s m t) (hm : m.isConstruct = false) :
    KeepsCommand s t ∨ EndsCommand s t := by
  cases h with
  | idle | hold | popEvent | clock | button | append | edge | sample | sampleAppend | holdEvent | terminal =>
    exact .inl ⟨rfl, rfl, fun _ => rfl⟩
  | observe =>
    rw [State.observe_frame]
    exact .inl ⟨rfl, rfl, fun _ => rfl⟩
  | rejectWord _ _ b c hb _ hc =>
    have hw : Res.wf ⟨c, 0⟩ = true := by rcases hc with ⟨rfl, -⟩ | ⟨rfl, -⟩ <;> rfl
    rcases hb with rfl | rfl <;> exact .inr (endsCommand_result _ hw)
  | beginCommand _ _ b i hb busy =>
    have hidle : s.cmd.busy ≠ true := by simp [busy]
    rcases hb with rfl | rfl <;> exact .inl ⟨rfl, rfl, fun hr => absurd hr hidle⟩
  | execute a =>
    rcases s.execStep_cases a with he | ⟨-, rest, -, -, he⟩ | ⟨-, l, v, rest, -, -, he⟩ |
      ⟨-, l, v, rest, -, -, he⟩ <;> rw [he]
    · exact .inl ⟨rfl, rfl, fun _ => rfl⟩
    · exact s.dwellDone.finishPrim_command rest
    · exact (s.lineWrite l v .ok).finishPrim_command rest
    · exact .inr (endsCommand_result (s.lineWrite l v .fail) (lineWriteFailure_wf l))
  | construct => cases hm

/-- Settles O37: every effect of one block either writes no result and leaves a running command, or writes one and ends
the command. -/
theorem resultsAreWrittenOncePerCommand : Obligations.ResultsAreWrittenOncePerCommand := by
  intro s t hk h
  have hcmd : KeepsCommand s t ∨ EndsCommand s t := by
    obtain ⟨-, ⟨-, rfl⟩ | ⟨m, rest, hs, he⟩⟩ := step_effect h
    · exact .inl ⟨rfl, rfl, fun _ => rfl⟩
    · exact he.command (hk m rest hs)
  rcases hcmd with ⟨hresults, hres, hcur⟩ | hend
  · exact ⟨.inl ⟨hresults, hres⟩, fun hb => .inl (hcur hb)⟩
  · exact ⟨.inr hend, fun _ => .inr hend.1⟩

/-! ### The clock (R31) -/

/-- Only the environment's clock move writes `now`, and never backwards. -/
theorem Effect.now_cases {s t : State} {m : Move} (h : Effect s m t) :
    t.now = s.now ∨ (m = .clock t.now ∧ s.now ≤ t.now) := by
  cases h with
  | idle | hold | popEvent | button | append | edge | sample | sampleAppend | holdEvent | terminal => exact .inl rfl
  | rejectWord _ _ b _ hb => rcases hb with rfl | rfl <;> exact .inl rfl
  | beginCommand _ _ b _ hb => rcases hb with rfl | rfl <;> exact .inl rfl
  | execute a => exact .inl (s.execStep_now a)
  | observe => rw [State.observe_frame]; exact .inl rfl
  | clock τ hτ => exact .inr ⟨rfl, hτ⟩
  | construct a _ hc => rw [(State.construct_next hc).2]; exact .inl rfl

/-- Settles O52: no effect but the clock move's writes `now`. -/
theorem clockIsMonotonic : Obligations.ClockIsMonotonic := by
  intro s t h
  obtain ⟨-, ⟨-, rfl⟩ | ⟨m, rest, hs, he⟩⟩ := step_effect h
  · exact ⟨le_rfl, fun hne => absurd rfl hne⟩
  · rcases he.now_cases with hnow | ⟨rfl, hle⟩
    · exact ⟨hnow.ge, fun hne => absurd hnow hne⟩
    · exact ⟨hle, fun _ => ⟨rest, hs⟩⟩

/-! ### The output lines (R19, R39, R44) -/

/-- A primitive's removal from `enc_ops` moves no line. -/
theorem State.finishPrim_lines (s : State) (rest : List Prim) : (s.finishPrim rest).lines = s.lines := by
  rw [State.finishPrim_frame]

/-- A write moves its own line only (R13). -/
theorem State.lineWrite_level_cases (s : State) (k : OutLine) (v : Bool) (a : Answer) (l : OutLine) :
    (s.lineWrite k v a).lines.level l = s.lines.level l ∨
    (k = l ∧ (s.lineWrite k v a).lines.level l = Level.after v a) := by
  by_cases hk : k = l
  · exact .inr ⟨hk, by simp [hk]⟩
  · exact .inl (by simp [hk])

/-- The executor moves a line only by the write of that line it performs. -/
theorem State.execStep_level_cases (s : State) (a : Answer) (l : OutLine) :
    (s.execStep a).lines.level l = s.lines.level l ∨
    (s.cmd.busy = true ∧ ∃ v ops, s.cmd.encOps = .w l v :: ops ∧
      (s.execStep a).lines.level l = Level.after v a) := by
  rcases s.execStep_cases a with he | ⟨-, rest, -, -, he⟩ | ⟨hb, k, v, rest, ho, rfl, he⟩ |
    ⟨hb, k, v, rest, ho, rfl, he⟩ <;> rw [he]
  · exact .inl rfl
  · exact .inl (congrArg (·.level l) (s.dwellDone.finishPrim_lines rest))
  · rw [State.finishPrim_lines]
    exact (s.lineWrite_level_cases k v .ok l).imp_right fun ⟨hk, hv⟩ => ⟨hb, v, rest, hk ▸ ho, hv⟩
  · exact (s.lineWrite_level_cases k v .fail l).imp_right fun ⟨hk, hv⟩ => ⟨hb, v, rest, hk ▸ ho, hv⟩

/-- Every effect but a construction moves a line only by the executor's write of it. -/
theorem Effect.level_cases {s t : State} {m : Move} (h : Effect s m t) (hm : m.isConstruct = false) (l : OutLine) :
    t.lines.level l = s.lines.level l ∨
    ∃ a v ops, m = .execute a ∧ s.cmd.busy = true ∧ s.cmd.encOps = .w l v :: ops ∧
      t.lines.level l = Level.after v a := by
  cases h with
  | idle | hold | popEvent | clock | button | append | edge | sample | sampleAppend | holdEvent | terminal =>
    exact .inl rfl
  | rejectWord _ _ b _ hb => rcases hb with rfl | rfl <;> exact .inl rfl
  | beginCommand _ _ b _ hb => rcases hb with rfl | rfl <;> exact .inl rfl
  | observe => rw [State.observe_frame]; exact .inl rfl
  | execute a => exact (s.execStep_level_cases a l).imp_right fun ⟨hb, v, ops, ho, hv⟩ => ⟨a, v, ops, rfl, hb, ho, hv⟩
  | construct => cases hm

/-- Settles O53: no effect of one block but the executor's write reaches a line's level. -/
theorem onlyTheExecutorMovesLines : Obligations.OnlyTheExecutorMovesLines := by
  intro s t l hk h hne
  obtain ⟨-, ⟨-, rfl⟩ | ⟨m, rest, hs, he⟩⟩ := step_effect h
  · exact absurd rfl hne
  · rcases he.level_cases (hk m rest hs) l with hl | ⟨a, v, ops, rfl, hb, ho, hv⟩
    · exact absurd hl hne
    · refine ⟨a, v, ops, rest, hs, hb, ho, ?_⟩
      rw [hv]
      cases a <;> cases v <;> rfl

/-! ### Reset (R36) -/

/-- Settles O2: what a construction writes, with the lines its exports leave; `State.reset` is read off. -/
theorem resetTableHolds : Obligations.ResetTableHolds := by
  refine ⟨fun s t c a h => ?_, by decide⟩
  have hready : t.init = .ready → t.lines.fan = .high ∧ t.lines.data = .low ∧ t.lines.clk = .low := fun hi => by
    rw [State.construct_ready_lines h hi]
    exact ⟨rfl, rfl, rfl⟩
  have hfailed : t.init = .exportFailed → t.lines.fan = .unknown ∧ t.lines.data = .unknown ∧ t.lines.clk = .unknown :=
    fun hi => by
      obtain ⟨p, q, r, hl⟩ := State.construct_failed_lines h hi
      rw [hl]
      exact ⟨rfl, rfl, rfl⟩
  refine ⟨hready, hfailed, ?_⟩
  rw [(State.construct_next h).2]
  exact ⟨rfl, rfl, rfl, rfl, rfl, rfl, rfl, rfl⟩

/-- `State.reset` is what a construction with the default configuration ends in when every export answers `ok`. -/
theorem reset_construct : State.reset.construct Cfg.default ⟨.ok, .ok, .ok, .ok⟩ = .next State.reset := rfl

/-- Settles O56: `State.reset` is the result of a construction, and every construction meets the three invariants. -/
theorem invariantsHoldAtReset : Obligations.InvariantsHoldAtReset :=
  ⟨commandInv_of_construct reset_construct, buttonInv_of_construct reset_construct,
    queueInv_of_construct reset_construct⟩

/-! ### The host's pop (R30, R143) -/

/-- Settles O51: the pop leaves the tail of `evq`, which is empty when `evq` is. -/
theorem hostPopsTheHead : Obligations.HostPopsTheHead := by
  intro s rest hl hs
  have hstep : step s = .next { s with evq := s.evq.tail, script := rest } := step_of_script hl hs
  refine ⟨fun e es he => ?_, fun he => ?_⟩
  · rw [hstep, he]; rfl
  · have htail : s.evq.tail = s.evq := by rw [he]; rfl
    rw [hstep, htail]

end Sys2Proof.Machine
end

section
/-!
PROOFS. Family `20_memory.md`: the command executor and the button state machine share no mutable state (R50, R129 (d)).
Each of the two is shown to keep away from the other's fields and from the script: it neither reads nor writes them.
-/

namespace Sys2Proof.Machine

/-! ### The two agents' fields -/

/-- `s` with the fields the executor writes taken from `e`, and the script `r`. -/
def State.withExecutor (s e : State) (r : List Move) : State := { s with lines := e.lines, cmd := e.cmd, script := r }

/-- `s` with the fields the state machine writes taken from `b`, and the script `r`. -/
def State.withButton (s b : State) (r : List Move) : State :=
  { s with fsm := b.fsm, inq := b.inq, evq := b.evq, emitted := b.emitted, script := r }

/-! ### The executor does not look at the state machine -/

/-- The end of a primitive does not look at the state machine's fields. -/
theorem State.finishPrim_withButton (s b : State) (r : List Move) (rest : List Prim) :
    (s.withButton b r).finishPrim rest = (s.finishPrim rest).withButton b r := by cases rest <;> rfl

/-- Nor does the executor's step (R50). -/
theorem State.execStep_withButton (s b : State) (r : List Move) (a : Answer) :
    (s.withButton b r).execStep a = (s.execStep a).withButton b r := by
  have hcmd : (s.withButton b r).cmd = s.cmd := rfl
  have hover : (s.withButton b r).dwellOver = s.dwellOver := rfl
  simp only [State.execStep, hcmd, hover]
  cases s.cmd.busy with
  | false => rfl
  | true =>
    cases s.cmd.encOps with
    | nil => rfl
    | cons p rest =>
      cases p with
      | d =>
        cases s.dwellOver with
        | false => rfl
        | true => exact s.dwellDone.finishPrim_withButton b r rest
      | w l v =>
        cases a with
        | ok => exact (s.lineWrite l v .ok).finishPrim_withButton b r rest
        | fail => rfl

/-- So its step, whatever the state machine's fields hold, leaves them and writes the same lines and command path. -/
theorem State.execStep_withButton_eq (s b : State) (r : List Move) (a : Answer) :
    (s.withButton b r).execStep a = (s.withButton b r).withExecutor (s.execStep a) r := by
  rw [State.execStep_withButton, State.execStep_frame]
  rfl

/-! ### The state machine does not look at the executor -/

/-- An observation does not look at the executor's fields. -/
theorem State.observe_withExecutor (s e : State) (r : List Move) (v : Bool) (t : Time) :
    (s.withExecutor e r).observe v t = (s.observe v t).withExecutor e r := by
  have hfsm : (s.withExecutor e r).fsm = s.fsm := rfl
  simp only [State.observe, hfsm]
  cases s.fsm.phase <;> cases v <;> rfl

/-- Nor does any trigger that may stand in `inq`, selected or not (R103). -/
theorem exec_queued_withExecutor (s e : State) (r : List Move) {c : TrigCode} {t : Time} {i : Instr}
    (hq : queueable c = true) (hd : decodeTrigger c t = .ok i) :
    exec i (s.withExecutor e r) = mapNext (·.withExecutor e r) (exec i s) := by
  have htakes : (s.withExecutor e r).takesTrigger t = s.takesTrigger t := rfl
  rcases decodeTrigger_of_queueable hq t with ⟨v, h, -⟩ | ⟨h, -⟩ | ⟨h, -⟩ <;> rw [h] at hd <;> cases hd
  · simp only [exec, execObs, htakes, State.observe_withExecutor]
    cases s.takesTrigger t <;> rfl
  · simp only [exec, execSrcEnd, htakes]
    cases s.takesTrigger t <;> rfl
  · simp only [exec, execTimerFail, htakes]
    cases s.takesTrigger t <;> rfl

/-- Nor does the DEADLINE step (R104). -/
theorem execDeadline_withExecutor (s e : State) (r : List Move) :
    execDeadline (s.withExecutor e r) = mapNext (·.withExecutor e r) (execDeadline s) := by
  have htakes : (s.withExecutor e r).takesDeadline = s.takesDeadline := rfl
  simp only [execDeadline, htakes]
  cases s.takesDeadline <;> rfl

/-- Nor does the processing of the head of `inq`, also where it is refused (R67, R103). -/
theorem State.processHead_withExecutor (s e : State) (r : List Move) :
    (s.withExecutor e r).processHead = mapNext (·.withExecutor e r) s.processHead := by
  have hinq : (s.withExecutor e r).inq = s.inq := rfl
  simp only [State.processHead, hinq]
  rcases s.inq with _ | ⟨⟨c, t⟩, rest⟩
  · rfl
  · cases hq : queueable c with
    | false => simp [hq]
    | true =>
      cases hd : decodeTrigger c t with
      | error err => simp [hq, hd]
      | ok i =>
        simp only [hq, hd, if_true]
        exact exec_queued_withExecutor { s with inq := rest } e r hq hd

/-- Nor does the state machine's step (R50). -/
theorem State.fsmStep_withExecutor (s e : State) (r : List Move) :
    (s.withExecutor e r).fsmStep = mapNext (·.withExecutor e r) s.fsmStep := by
  have hlive : (s.withExecutor e r).fsmLive = s.fsmLive := rfl
  have hready : (s.withExecutor e r).deadlineReady = s.deadlineReady := rfl
  simp only [State.fsmStep, hlive, hready]
  cases s.fsmLive with
  | false => rfl
  | true =>
    cases s.deadlineReady with
    | false => exact s.processHead_withExecutor e r
    | true => exact execDeadline_withExecutor s e r

/-- The state machine reaches only its own fields, its input and its output. -/
theorem State.fsmStep_frame {s t : State} (h : s.fsmStep = .next t) : t = s.withButton t s.script := by
  rcases State.fsmStep_cases h with rfl | ⟨-, -, rfl⟩ | ⟨-, -, c, τ, rest, -, -, ⟨v, -, rfl⟩ | ⟨-, rfl⟩ | ⟨-, rfl⟩⟩
  · rfl
  · rfl
  · rw [State.observe_frame]; rfl
  · rfl
  · rfl

/-! ### Either order (R50, R129 (d)) -/

/-- The executor's step after the state machine's leaves what the state machine's step left, with the lines and the
command path that the executor's step leaves before it. -/
theorem State.execStep_of_fsmStep {s t : State} (h : s.fsmStep = .next t) (a : Answer) :
    t.execStep a = t.withExecutor (s.execStep a) s.script := by
  have hstep := s.execStep_withButton_eq t s.script a
  rwa [← State.fsmStep_frame h] at hstep

/-- A run of one step is the step. -/
theorem run_one (s : State) : run 1 s = step s := by
  cases h : step s <;> simp only [run, h]

/-- A run goes on from the state its first step answers. -/
theorem run_succ_of_next {s t : State} (h : step s = .next t) (n : Nat) : run (n + 1) s = run n t := by
  simp only [run, h]

/-- A legal block's step takes the move at the head of whatever script it is given. -/
theorem step_script {s : State} (hl : s.cfg.legal = true) (m : Move) (rest : List Move) :
    step { s with script := m :: rest } = State.takeMove { s with script := rest } m :=
  step_of_script (s := { s with script := m :: rest }) hl rfl

/-- The executor's move: what its step writes, and the rest of the script. -/
theorem step_execute {s : State} (hl : s.cfg.legal = true) (a : Answer) (rest : List Move) :
    step { s with script := .execute a :: rest } = .next (s.withExecutor (s.execStep a) rest) :=
  (step_script hl (.execute a) rest).trans (congrArg Host.Outcome.next (s.execStep_withButton_eq s rest a))

/-- The state machine's move: its step, and the rest of the script. -/
theorem step_fsm {s : State} (hl : s.cfg.legal = true) (rest : List Move) :
    step { s with script := .fsm :: rest } = mapNext (·.withExecutor s rest) s.fsmStep :=
  (step_script hl .fsm rest).trans (s.fsmStep_withExecutor s rest)

/-- The executor's move and then the state machine's: the state machine's outcome, with what the executor wrote. -/
theorem run_execute_fsm {s : State} (hl : s.cfg.legal = true) (a : Answer) (rest : List Move) :
    run 2 { s with script := .execute a :: .fsm :: rest } =
      mapNext (·.withExecutor (s.execStep a) rest) s.fsmStep := by
  rw [run_succ_of_next (step_execute hl a (.fsm :: rest)), run_one]
  exact (step_script (s := s.withExecutor (s.execStep a) rest) hl .fsm rest).trans
    (s.fsmStep_withExecutor (s.execStep a) rest)

/-- The state machine's move and then the executor's: the same. -/
theorem run_fsm_execute {s : State} (hl : s.cfg.legal = true) (a : Answer) (rest : List Move) :
    run 2 { s with script := .fsm :: .execute a :: rest } =
      mapNext (·.withExecutor (s.execStep a) rest) s.fsmStep := by
  have hfsm := step_fsm hl (.execute a :: rest)
  cases h : s.fsmStep with
  | fault r => simp only [run, hfsm, h, mapNext]
  | refused r => simp only [run, hfsm, h, mapNext]
  | next t =>
    have hframe := State.fsmStep_frame h
    have hlegal : t.cfg.legal = true := by rw [hframe]; exact hl
    have hscript : t.withExecutor s (.execute a :: rest) = { t with script := .execute a :: rest } := by
      rw [hframe]; rfl
    rw [h, mapNext_next, hscript] at hfsm
    rw [run_succ_of_next hfsm, run_one, step_execute hlegal, State.execStep_of_fsmStep h]
    rfl

/-- Settles O54: both orders of a legal block end in the state machine's own outcome with what the executor's step wrote
put in, a refusal in either order where the state machine's step is refused; an illegal block is refused at once. -/
theorem executorAndButtonStepsCommute : Obligations.ExecutorAndButtonStepsCommute := by
  intro s a rest
  cases hl : s.cfg.legal with
  | true => rw [run_execute_fsm hl, run_fsm_execute hl]
  | false =>
    have hrefused (r : List Move) : step { s with script := r } = .refused .illegalConfig :=
      step_of_illegal (s := { s with script := r }) hl
    simp only [run, hrefused]

end Sys2Proof.Machine
end

section
/-!
PROOFS. Family `30_encoding.md`: the decoders and the encoder agree (R54 to R62, R67, R71, R85), which command words are
illegal (R59), what a SET_LED puts on the wire (R40, R41, R60 to R63), and the pseudo-instructions (R71).
-/

namespace Sys2Proof.Machine

/-! ### Command words (R55 to R59) -/

/-- The number two words spell side by side. -/
theorem toNat_append_eq_add {m n : Nat} (x : BitVec m) (y : BitVec n) :
    (x ++ y).toNat = x.toNat * 2 ^ n + y.toNat := by
  rw [BitVec.toNat_append, ← Nat.shiftLeft_add_eq_or_of_lt y.isLt, Nat.shiftLeft_eq]

/-- A SET_LED word is given by its first byte and its four operands (R56). -/
theorem eq_ledCommandWord_iff {cw : CmdWord} {r g b : Byte} {br : F32} : cw = ledCommandWord r g b br ↔
    cw.extractLsb' 56 8 = 0x10#8 ∧ cw.extractLsb' 48 8 = r ∧ cw.extractLsb' 40 8 = g ∧ cw.extractLsb' 32 8 = b ∧
      cw.extractLsb' 0 32 = br := by
  simp only [← BitVec.toNat_inj, ledCommandWord, toNat_append_eq_add, BitVec.extractLsb'_toNat,
    Nat.shiftRight_eq_div_pow, BitVec.toNat_ofNat]
  omega

/-- The test of R58 for SET_FAN reads every bit but the level's. -/
theorem fanMask_eq_iff (cw : CmdWord) :
    cw &&& 0xFFFFFFFFFFFFFFFE#64 = 0x2000000000000000#64 ↔ cw.toNat / 2 = 0x1000000000000000 := by
  have hmask : cw &&& 0xFFFFFFFFFFFFFFFE#64 = cw >>> 1 <<< 1 :=
    (BitVec.shiftLeft_ushiftRight (x := cw) (n := 1)).symm
  rw [hmask, ← BitVec.toNat_inj, BitVec.toNat_shiftLeft, BitVec.toNat_ushiftRight, Nat.shiftRight_eq_div_pow,
    Nat.shiftLeft_eq, BitVec.toNat_ofNat]
  omega

/-- A SET_FAN word is given by what that test reads and by its level (R57). -/
theorem eq_fanCommandWord_iff {cw : CmdWord} {on : Bool} : cw = fanCommandWord on ↔
    cw &&& 0xFFFFFFFFFFFFFFFE#64 = 0x2000000000000000#64 ∧ cw.getLsbD 0 = on := by
  rw [fanMask_eq_iff, ← BitVec.toNat_inj, BitVec.getLsbD, Nat.testBit_zero]
  cases on <;> simp [fanCommandWord] <;> omega

/-- OP and the reserved bits of a SET_LED (R55, R56), read as one byte. -/
theorem ledOp_eq_iff (cw : CmdWord) :
    cw.extractLsb' 56 8 = 0x10#8 ↔ cw.extractLsb' 60 4 = 1#4 ∧ cw.extractLsb' 56 4 = 0#4 := by
  simp only [← BitVec.toNat_inj, BitVec.extractLsb'_toNat, Nat.shiftRight_eq_div_pow, BitVec.toNat_ofNat]
  omega

/-- OP and the reserved bits of a SET_FAN (R55, R57), read under one mask. -/
theorem fanOp_eq_iff (cw : CmdWord) : cw &&& 0xFFFFFFFFFFFFFFFE#64 = 0x2000000000000000#64 ↔
    cw.extractLsb' 60 4 = 2#4 ∧ cw.extractLsb' 1 59 = 0#59 := by
  rw [fanMask_eq_iff]
  simp only [← BitVec.toNat_inj, BitVec.extractLsb'_toNat, Nat.shiftRight_eq_div_pow, BitVec.toNat_ofNat]
  omega

/-- SET_LED is decoded from its own words only (R56, R58). -/
theorem decodeCommand_setLed_iff {cw : CmdWord} {r g b : Byte} {br : F32} :
    decodeCommand cw = .ok (.setLed r g b br) ↔ cw = ledCommandWord r g b br := by
  rw [eq_ledCommandWord_iff]
  unfold decodeCommand
  split
  · next hop => simp [hop]
  · next hop => split <;> simp [hop]

/-- SET_FAN is decoded from its own words only (R57, R58): no word has both commands' OP. -/
theorem decodeCommand_setFan_iff {cw : CmdWord} {on : Bool} :
    decodeCommand cw = .ok (.setFan on) ↔ cw = fanCommandWord on := by
  rw [eq_fanCommandWord_iff]
  unfold decodeCommand
  split
  · next hop => simp [fanOp_eq_iff, (ledOp_eq_iff cw).mp hop]
  · split
    · next hmask => simp [hmask]
    · next hmask => simp [hmask]

/-- A word is illegal when it passes neither test of R58. -/
theorem decodeCommand_illegal_iff (cw : CmdWord) : decodeCommand cw = .error .illegalCommand ↔
    cw.extractLsb' 56 8 ≠ 0x10#8 ∧ cw &&& 0xFFFFFFFFFFFFFFFE#64 ≠ 0x2000000000000000#64 := by
  unfold decodeCommand
  split
  · next hop => simp [hop]
  · next hop => split <;> simp [*]

/-- A command word that decodes is the encoding of what it decodes to (R58). -/
theorem encode_of_decodeCommand {cw : CmdWord} {i : Instr} (h : decodeCommand cw = .ok i) :
    encode i = .command cw := by
  have hc := decodeCommand_isCommand h
  cases i with
  | setLed => exact congrArg Packet.command (decodeCommand_setLed_iff.mp h).symm
  | setFan => exact congrArg Packet.command (decodeCommand_setFan_iff.mp h).symm
  | _ => cases hc

/-- Settles O8: the two tests of R58, each read as an OP and its reserved bits; OP 1 is not OP 2. -/
theorem illegalWordsAreTheReservedOnes : Obligations.IllegalWordsAreTheReservedOnes := by
  intro cw
  rw [decodeCommand_illegal_iff, Ne, ledOp_eq_iff, Ne, fanOp_eq_iff]
  by_cases h1 : cw.extractLsb' 60 4 = 1#4
  · simp [h1]
  · by_cases h2 : cw.extractLsb' 60 4 = 2#4 <;> simp [h1, h2]

/-! ### Trigger codes (R67) -/

/-- A trigger code is given by its name, its reserved bits and its level. -/
theorem trigCode_eq_of_parts {c c' : TrigCode} (hname : c.extractLsb' 6 2 = c'.extractLsb' 6 2)
    (hreserved : c.extractLsb' 1 5 = c'.extractLsb' 1 5) (hlevel : c.getLsbD 0 = c'.getLsbD 0) : c = c' := by
  have hparts : ∀ c : TrigCode, c = c.extractLsb' 6 2 ++ c.extractLsb' 1 5 ++ BitVec.ofBool (c.getLsbD 0) := by
    decide
  rw [hparts c, hparts c', hname, hreserved, hlevel]

/-- The fourth of the four names (R67). -/
theorem trigName_eq_three {n : BitVec 2} (h0 : n ≠ 0b00#2) (h1 : n ≠ 0b01#2) (h2 : n ≠ 0b10#2) : n = 0b11#2 := by
  revert n; decide

/-- What a trigger code that decodes is (R67). -/
theorem decodeTrigger_cases {c : TrigCode} {t : Time} {i : Instr} (h : decodeTrigger c t = .ok i) :
    (∃ v, c = obsCode v ∧ i = .obs v t) ∨ (c = srcEndCode ∧ i = .srcEnd t) ∨
    (c = timerFailCode ∧ i = .timerFail t) ∨ (c = deadlineCode ∧ i = .deadline) := by
  unfold decodeTrigger at h
  split at h
  · cases h
  next hres =>
  rw [not_not] at hres
  split at h
  · next hobs =>
    cases h
    have hc : c = obsCode (c.getLsbD 0) := by
      cases hl : c.getLsbD 0 <;> exact trigCode_eq_of_parts hobs hres hl
    exact .inl ⟨_, hc, rfl⟩
  next hobs =>
  split at h
  · cases h
  next hl =>
  rw [Bool.not_eq_true] at hl
  split at h
  · next hsrc => cases h; exact .inr (.inl ⟨trigCode_eq_of_parts hsrc hres hl, rfl⟩)
  next hsrc =>
  split at h
  · next htimer => cases h; exact .inr (.inr (.inl ⟨trigCode_eq_of_parts htimer hres hl, rfl⟩))
  · next htimer =>
    cases h
    exact .inr (.inr (.inr ⟨trigCode_eq_of_parts (trigName_eq_three hobs hsrc htimer) hres hl, rfl⟩))

/-- A trigger that decodes is the encoding of what it decodes to, but for DEADLINE, which has no timestamp to encode. -/
theorem encode_of_decodeTrigger {c : TrigCode} {t : Time} {i : Instr} (h : decodeTrigger c t = .ok i)
    (hi : i ≠ .deadline) : encode i = .trigger c t := by
  rcases decodeTrigger_cases h with ⟨v, rfl, rfl⟩ | ⟨rfl, rfl⟩ | ⟨rfl, rfl⟩ | ⟨-, rfl⟩
  · rfl
  · rfl
  · rfl
  · exact absurd rfl hi

/-- The one code of DEADLINE, whatever stands beside it. -/
theorem decodeTrigger_deadline_iff (c : TrigCode) (t : Time) :
    decodeTrigger c t = .ok .deadline ↔ c = deadlineCode := by
  constructor
  · intro h
    rcases decodeTrigger_cases h with ⟨_, -, hi⟩ | ⟨-, hi⟩ | ⟨-, hi⟩ | ⟨hc, -⟩
    · cases hi
    · cases hi
    · cases hi
    · exact hc
  · rintro rfl; rfl

/-- Settles O7: a command is decoded from its own words only, and the tests of R67 fix every bit of a trigger code. -/
theorem decodedWordsEncodeBack : Obligations.DecodedWordsEncodeBack :=
  ⟨fun _ _ => encode_of_decodeCommand, fun _ _ _ => encode_of_decodeTrigger, decodeTrigger_deadline_iff⟩

/-! ### Bit cells (R40, R60 to R62) -/

/-- A word has a cell for each of its bits. -/
@[simp] theorem length_bitsMsbFirst {n : Nat} (w : BitVec n) : (bitsMsbFirst w).length = n := by
  simp [bitsMsbFirst]

/-- The bits of two words side by side are those of one and then those of the other (R40). -/
theorem bitsMsbFirst_append {m n : Nat} (x : BitVec m) (y : BitVec n) :
    bitsMsbFirst (x ++ y) = bitsMsbFirst x ++ bitsMsbFirst y := by
  simp only [bitsMsbFirst, List.range_add, List.map_append, List.map_map]
  congr 1
  · refine List.map_congr_left fun k hk => ?_
    have hk : k < m := List.mem_range.mp hk
    rw [BitVec.getLsbD_append, if_neg (by omega)]
    congr 1; omega
  · refine List.map_congr_left fun k hk => ?_
    have hk : k < n := List.mem_range.mp hk
    rw [Function.comp, BitVec.getLsbD_append, if_pos (by omega)]
    congr 1; omega

/-- The most significant bit comes first (R40). -/
theorem bitsMsbFirst_succ {n : Nat} (w : BitVec (n + 1)) :
    bitsMsbFirst w = w.msb :: bitsMsbFirst (w.setWidth n) := by
  rw [bitsMsbFirst, List.range_succ_eq_map, List.map_cons, List.map_map, bitsMsbFirst]
  congr 1
  refine List.map_congr_left fun k hk => ?_
  have hk : k < n := List.mem_range.mp hk
  rw [Function.comp, BitVec.getLsbD_setWidth, decide_eq_true (by omega : n - 1 - k < n), Bool.true_and]
  congr 1; omega

/-- Reading the cells of a word behind cells that spell `acc`. -/
theorem foldl_bitsMsbFirst {n : Nat} (w : BitVec n) (acc : Nat) :
    (bitsMsbFirst w).foldl (fun acc b => 2 * acc + b.toNat) acc = acc * 2 ^ n + w.toNat := by
  induction n generalizing acc with
  | zero => simp [bitsMsbFirst, BitVec.eq_nil w]
  | succ n ih =>
    have hw : w.toNat = w.msb.toNat * 2 ^ n + (w.setWidth n).toNat := by
      conv_lhs => rw [← BitVec.cons_msb_setWidth w]
      rw [BitVec.toNat_cons', Nat.shiftLeft_eq]
    rw [bitsMsbFirst_succ, List.foldl_cons, ih, hw]
    ring

/-- The cells of a word spell its number (R40). -/
@[simp] theorem bitsToNat_bitsMsbFirst {n : Nat} (w : BitVec n) : bitsToNat (bitsMsbFirst w) = w.toNat :=
  (foldl_bitsMsbFirst w 0).trans (by rw [Nat.zero_mul, Nat.zero_add])

/-- The fields of a data frame word are those it was made of (R61). -/
theorem ledFrameOfWord_frame32 (f : Field5) (b g r : Byte) :
    ledFrameOfWord (frame32 f b g r) = .ledFrame f b g r := by
  simp only [ledFrameOfWord, Instr.ledFrame.injEq, ← BitVec.toNat_inj, frame32, controlByte, toNat_append_eq_add,
    BitVec.extractLsb'_toNat, Nat.shiftRight_eq_div_pow, BitVec.toNat_ofNat]
  omega

/-- A data frame starts with 111 (R61). -/
theorem bitsMsbFirst_frame32 (f : Field5) (b g r : Byte) : bitsMsbFirst (frame32 f b g r) =
    true :: true :: true :: (bitsMsbFirst f ++ bitsMsbFirst b ++ bitsMsbFirst g ++ bitsMsbFirst r) := by
  simp only [frame32, controlByte, bitsMsbFirst_append]
  rfl

/-- The cells of a data frame decode to it (R61): its first cells make it no start frame, and its word has its fields. -/
theorem decodeFrame_frame32 (f : Field5) (b g r : Byte) :
    decodeFrame (bitsMsbFirst (frame32 f b g r)) = .ok (.ledFrame f b g r) := by
  have hstart : (bitsMsbFirst (frame32 f b g r)).all (! ·) = false := by simp [bitsMsbFirst_frame32]
  have h111 : ((bitsMsbFirst (frame32 f b g r)).take 3).all id = true := by simp [bitsMsbFirst_frame32]
  simp [decodeFrame, hstart, h111, ledFrameOfWord_frame32]

/-- Cells at one level decode to what the bits of an end frame say (R60, R62, R85; log 8). -/
theorem decodeFrame_replicate (l : Bool) {m : Nat} (h32 : 32 ≤ m) (h255 : m ≤ 255) :
    decodeFrame (List.replicate m l) = .ok (Instr.endFrame l m).reading := by
  have hm : m ≠ 0 := by omega
  cases l with
  | false =>
    by_cases h36 : m ≤ 36
    · simp [decodeFrame, Instr.reading, h32, h36]
    · have hdata : m ≠ 32 := by omega
      simp [decodeFrame, Instr.reading, List.head?_replicate, hm, h32, h36, hdata, h255]
  | true =>
    by_cases hdata : m = 32
    · subst hdata; decide
    · simp [decodeFrame, Instr.reading, List.head?_replicate, hm, h32, hdata, h255]

/-- The cells of a start frame are those of an end frame at level 0 (R85), and decode to the start frame (R60). -/
theorem decodeFrame_startCells {n : Nat} (h32 : 32 ≤ n) (h36 : n ≤ 36) :
    decodeFrame (List.replicate n false) = .ok (.startFrame n) := by
  rw [decodeFrame_replicate false h32 (by omega), Instr.reading, if_pos h36]

/-- Settles O6: a command by the word it alone is decoded from, a trigger by its code, a frame by its cells. -/
theorem encodedInstructionsDecodeBack : Obligations.EncodedInstructionsDecodeBack := by
  intro i hwf
  cases i with
  | setLed | ledOff => exact decodeCommand_setLed_iff.mpr rfl
  | setFan | fanOn | fanOff => exact decodeCommand_setFan_iff.mpr rfl
  | obs v => cases v <;> rfl
  | srcEnd | timerFail | deadline => rfl
  | startFrame n =>
    simp only [Instr.wf, Bool.and_eq_true, decide_eq_true_eq] at hwf
    exact decodeFrame_startCells hwf.1 hwf.2
  | ledFrame f b g r => exact decodeFrame_frame32 f b g r
  | endFrame l m =>
    simp only [Instr.wf, Bool.and_eq_true, decide_eq_true_eq] at hwf
    exact decodeFrame_replicate l hwf.1 hwf.2

/-- Settles O9: each word is closed, and the decoders compute. -/
theorem writtenOutWordsDecode : Obligations.WrittenOutWordsDecode := by
  unfold Obligations.WrittenOutWordsDecode
  decide

/-! ### The wire (R63, R80 to R86) -/

/-- A row of pulses carries the level of the data line once for each (R80). -/
theorem wireCells_pulses (d : Bool) (n : Nat) (rest : List Prim) :
    wireCells d (repeatOps n pulse ++ rest) = List.replicate n d ++ wireCells d rest := by
  induction n with
  | zero => rfl
  | succ n ih => exact congrArg (d :: ·) ih

/-- A start frame carries its cells at level 0 (R60, R83). -/
theorem wireCells_startOps (d : Bool) (n : Nat) (rest : List Prim) :
    wireCells d (startOps n ++ rest) = List.replicate n false ++ wireCells false rest :=
  wireCells_pulses false n rest

/-- An end frame carries its cells at its own level (R62, R85). -/
theorem wireCells_endOps (d l : Bool) (m : Nat) : wireCells d (endOps l m) = List.replicate m l := by
  simpa [endOps, wireCells] using wireCells_pulses l m []

/-- Bits are carried in the order they are sent, and the last one stays on the data line (R81). -/
theorem wireCells_bitsOps (d : Bool) (vs : List Bool) (rest : List Prim) :
    wireCells d (bitsOps vs ++ rest) = vs ++ wireCells (vs.getLastD d) rest := by
  induction vs generalizing d with
  | nil => rfl
  | cons v vs ih => rw [List.getLastD_cons]; exact congrArg (v :: ·) (ih v)

/-- Bits are sent one after the other (R82). -/
theorem bitsOps_append (xs ys : List Bool) : bitsOps (xs ++ ys) = bitsOps xs ++ bitsOps ys := by
  induction xs with
  | nil => rfl
  | cons v vs ih => exact (congrArg (bitOps v ++ ·) ih).trans (List.append_assoc _ _ _).symm

/-- The four bytes of a data frame send the bits of its word (R61, R84). -/
theorem dataOps_eq_bitsOps (f : Field5) (b g r : Byte) :
    dataOps (controlByte f) b g r = bitsOps (bitsMsbFirst (frame32 f b g r)) := by
  simp only [frame32, bitsMsbFirst_append, bitsOps_append]
  rfl

/-- Settles O20: the cells of the three frames one after the other; each writes the data line before its first pulse, so
none of them shows the level the line had before. -/
theorem wireCarriesStartWordEnd : Obligations.WireCarriesStartWordEnd := by
  intro c f b g r before
  rw [frameOps, dataOps_eq_bitsOps, List.append_assoc, wireCells_startOps, wireCells_bitsOps, wireCells_endOps,
    List.append_assoc]
  rfl

/-! ### Pseudo-instructions (R71) -/

/-- Every instruction does what its expansion does. -/
theorem exec_expand (i : Instr) (s : State) : exec i.expand s = exec i s := by cases i <;> rfl

/-- A command presented to a free port of a ready block begins (R88, R97). -/
theorem State.startCommand_of_free {s : State} (hb : s.cmd.busy = false) (hi : s.init = .ready) (i : Instr)
    (ops : List Prim) : s.startCommand i ops = .next (s.begin i ops) := by
  simp [State.startCommand, hb, hi]

/-- What spells a host command begins that command on a free port of a ready block. -/
theorem exec_of_free {s : State} (hb : s.cmd.busy = false) (hi : s.init = .ready) {i : Instr}
    (hc : i.expand.isCommand = true) : exec i s = .next (s.begin i.expand (commandOps s.cfg i.expand)) := by
  rw [← exec_expand, exec_command s hc, State.startCommand_of_free hb hi]

/-- Brightness +0.0 is field 0 in both modes (R73, R74). -/
theorem brightnessField_zero (c : Cfg) : brightnessField c 0 = 0 := by
  unfold brightnessField
  cases c.brightnessMode <;> rfl

/-- The frame of `led_off`: control byte 0xE0 and three zero bytes. -/
theorem commandOps_ledOff (c : Cfg) : commandOps c (.setLed 0 0 0 0) =
    startOps c.startPulses ++ dataOps 0xE0 0 0 0 ++ endOps c.endLevel c.endPulses := by
  rw [commandOps, brightnessField_zero]
  rfl

/-- Settles O23: the words are the encoder's own, and each pseudo-instruction begins its expansion. -/
theorem pseudoInstructionsAreTheirExpansions : Obligations.PseudoInstructionsAreTheirExpansions := by
  refine ⟨⟨rfl, rfl, rfl⟩, fun s => ?_, fun s hb hi => ⟨?_, ?_, ?_⟩⟩
  · exact ⟨(exec_expand .fanOn s).symm, (exec_expand .fanOff s).symm, (exec_expand .ledOff s).symm⟩
  · exact exec_of_free hb hi (i := .fanOn) rfl
  · exact exec_of_free hb hi (i := .fanOff) rfl
  · rw [exec_of_free hb hi (i := .ledOff) rfl, Instr.expand, commandOps_ledOff]
    rfl

end Sys2Proof.Machine
end

section
/-!
PROOFS. Family `40_led_encoder.md`, the time dwells take (R93, R159).
-/

namespace Sys2Proof.Machine

/-! ### Runs of one block -/

/-- A run of one step more goes through the state its first step answers. -/
theorem run_succ_eq_next {n : Nat} {s t : State} (h : run (n + 1) s = .next t) :
    ∃ u, step s = .next u ∧ run n u = .next t := by
  cases hs : step s with
  | next u => exact ⟨u, rfl, (run_succ_of_next hs n).symm.trans h⟩
  | fault r => simp only [run, hs, reduceCtorEq] at h
  | refused r => simp only [run, hs, reduceCtorEq] at h

/-- No effect writes the script. -/
theorem Effect.script_eq {s t : State} {m : Move} (h : Effect s m t) : t.script = s.script := by
  cases h with
  | idle | hold | popEvent | clock | button | append | edge | sample | sampleAppend | holdEvent | terminal => rfl
  | rejectWord _ _ b _ hb => rcases hb with rfl | rfl <;> rfl
  | beginCommand _ _ b _ hb => rcases hb with rfl | rfl <;> rfl
  | execute a => exact s.execStep_script a
  | observe => rw [State.observe_frame]
  | construct a _ hc => rw [(State.construct_next hc).2]

/-- A step takes its move from the script. -/
theorem step_script_eq_tail {s t : State} (h : step s = .next t) : t.script = s.script.tail := by
  obtain ⟨-, ⟨hs, rfl⟩ | ⟨m, rest, hs, he⟩⟩ := step_effect h
  · rw [hs]; rfl
  · rw [hs]; exact he.script_eq

/-- A script whose next `n + 1` moves construct no block has no construction as its head. -/
theorem State.keepsBlockFor.head {n : Nat} {s : State} (h : s.keepsBlockFor (n + 1)) : s.keepsBlock :=
  fun m rest hs => h m (by simp [hs])

/-- Nor is one among the `n` moves that remain after a step. -/
theorem State.keepsBlockFor.tail {n : Nat} {s t : State} (h : s.keepsBlockFor (n + 1)) (hstep : step s = .next t) :
    t.keepsBlockFor n := fun m hm => by
  rw [step_script_eq_tail hstep] at hm
  cases hs : s.script with
  | nil => simp [hs] at hm
  | cons m' rest => exact h m (by rw [hs] at hm ⊢; exact List.mem_cons_of_mem _ hm)

/-! ### The dwell timer against the dwells of the trace (R93) -/

/-- From `s` to `t` the dwell timer has advanced by `DWELL_NS` at least for each dwell added to the trace. -/
def DwellsAdvance (s t : State) : Prop :=
  s.cmd.dwellFrom + s.cfg.dwellNs * tracedDwells t.cmd.trace ≤
    t.cmd.dwellFrom + s.cfg.dwellNs * tracedDwells s.cmd.trace

/-- The advances of two runs of one block add up. -/
theorem DwellsAdvance.trans {s t u : State} (hst : DwellsAdvance s t) (htu : DwellsAdvance t u)
    (hcfg : t.cfg = s.cfg) : DwellsAdvance s u := by
  simp only [DwellsAdvance, Time, hcfg] at hst htu ⊢
  omega

/-- Without a new primitive, the timer need only not go back. -/
theorem dwellsAdvance_of_trace_eq {s t : State} (htrace : t.cmd.trace = s.cmd.trace)
    (hle : s.cmd.dwellFrom ≤ t.cmd.dwellFrom) : DwellsAdvance s t := by
  unfold DwellsAdvance
  rw [htrace]
  exact Nat.add_le_add_right hle _

/-- The dwells of a longer trace. -/
theorem tracedDwells_concat (trace : List TraceItem) (x : TraceItem) :
    tracedDwells (trace ++ [x]) = tracedDwells trace + x.isDwell.toNat := by
  cases x <;> simp [tracedDwells, TraceItem.isDwell, List.filter_cons]

/-- A write sets the timer to `now` and adds no dwell. -/
theorem dwellsAdvance_lineWrite {s : State} (hle : s.cmd.dwellFrom ≤ s.now) (l : OutLine) (v : Bool) (a : Answer) :
    DwellsAdvance s (s.lineWrite l v a) := by
  simpa [DwellsAdvance, tracedDwells_concat, TraceItem.isDwell] using hle

/-- A dwell adds itself, and the timer stands `DWELL_NS` further at least, because it was over (R93). -/
theorem dwellsAdvance_dwellDone {s : State} (hover : s.cmd.dwellFrom + s.cfg.dwellNs ≤ s.now) :
    DwellsAdvance s s.dwellDone := by
  simp only [DwellsAdvance, Time, State.dwellDone_cmd_trace, State.dwellDone_cmd_dwellFrom, tracedDwells_concat,
    TraceItem.isDwell, Bool.toNat_true, Nat.mul_add] at hover ⊢
  omega

/-- The end of a primitive writes neither the timer nor the trace. -/
theorem DwellsAdvance.finishPrim {s t : State} (h : DwellsAdvance s t) (rest : List Prim) :
    DwellsAdvance s (t.finishPrim rest) := by
  obtain ⟨htrace, hfrom, -⟩ := t.finishPrim_trace rest
  unfold DwellsAdvance
  rwa [htrace, hfrom]

/-- Every effect of one block advances the timer by its dwells. -/
theorem Effect.dwellsAdvance {s t : State} {m : Move} (h : Effect s m t) (hm : m.isConstruct = false)
    (hle : s.cmd.dwellFrom ≤ s.now) : DwellsAdvance s t := by
  cases h with
  | idle | hold | popEvent | clock | button | append | edge | sample | sampleAppend | holdEvent | terminal =>
    exact dwellsAdvance_of_trace_eq rfl le_rfl
  | observe => rw [State.observe_frame]; exact dwellsAdvance_of_trace_eq rfl le_rfl
  | rejectWord _ _ b _ hb => rcases hb with rfl | rfl <;> exact dwellsAdvance_of_trace_eq rfl le_rfl
  | beginCommand _ _ b _ hb => rcases hb with rfl | rfl <;> exact dwellsAdvance_of_trace_eq rfl hle
  | execute a =>
    rcases s.execStep_cases a with he | ⟨-, rest, -, hover, he⟩ | ⟨-, l, v, rest, -, -, he⟩ |
      ⟨-, l, v, rest, -, -, he⟩ <;> rw [he]
    · exact dwellsAdvance_of_trace_eq rfl le_rfl
    · exact (dwellsAdvance_dwellDone hover).finishPrim rest
    · exact (dwellsAdvance_lineWrite hle l v .ok).finishPrim rest
    · exact dwellsAdvance_lineWrite hle l v .fail
  | construct => cases hm

/-- So does every step of one block. -/
theorem step_dwellsAdvance {s t : State} (hle : s.cmd.dwellFrom ≤ s.now) (hk : s.keepsBlock) (h : step s = .next t) :
    DwellsAdvance s t := by
  obtain ⟨-, ⟨-, rfl⟩ | ⟨m, rest, hs, he⟩⟩ := step_effect h
  · exact dwellsAdvance_of_trace_eq rfl le_rfl
  · exact he.dwellsAdvance (hk m rest hs) hle

/-- Settles O36, by induction on the run: each step advances the timer by its dwells, and keeps the invariant, which says
that the timer does not run ahead of `now`. -/
theorem dwellsTakeTheirTime : Obligations.DwellsTakeTheirTime := by
  intro n
  induction n with
  | zero =>
    intro s t hinv _ hrun
    obtain rfl : s = t := Host.Outcome.next.inj hrun
    exact ⟨le_rfl, hinv.dwell⟩
  | succ n ih =>
    intro s t hinv hk hrun
    obtain ⟨u, hstep, hrun⟩ := run_succ_eq_next hrun
    obtain ⟨hadv, hnow⟩ := ih u t (commandInvariantIsKept s u hinv hstep) (hk.tail hstep) hrun
    have hfirst : DwellsAdvance s u := step_dwellsAdvance hinv.dwell hk.head hstep
    exact ⟨hfirst.trans hadv (step_stepWith hstep).2, hnow⟩

end Sys2Proof.Machine
end

section
/-!
PROOFS. Family `40_led_encoder.md`, the brightness (R73 to R76). A binary32 pattern is read as its sign and its magnitude
field, and the magnitude field as an exact multiple of 2^-150. On exact values both roundings of R12 depend on the value
alone, and each is monotone; the bounds of the quantizers follow from their values at 0.0 and 1.0.
-/

namespace Sys2Proof.Machine

/-! ### Patterns by sign and magnitude (R64) -/

/-- The exponent is the upper part of the magnitude field. -/
theorem f32Exp_eq (b : F32) : f32Exp b = f32Magnitude b / 2 ^ 23 := by
  simp only [f32Exp, f32Magnitude, BitVec.extractLsb'_toNat, Nat.shiftRight_eq_div_pow]
  omega

/-- The fraction is its lower part. -/
theorem f32Frac_eq (b : F32) : f32Frac b = f32Magnitude b % 2 ^ 23 := by
  simp only [f32Frac, f32Magnitude, BitVec.extractLsb'_toNat, Nat.shiftRight_eq_div_pow]
  omega

/-- The magnitude field has 31 bits. -/
theorem f32Magnitude_lt (b : F32) : f32Magnitude b < 2 ^ 31 := (b.extractLsb' 0 31).isLt

/-- The NaNs are the patterns above the infinities. -/
theorem isNaN_iff (b : F32) : isNaN b = true ↔ infMagnitude < f32Magnitude b := by
  have := f32Magnitude_lt b
  simp only [isNaN, f32Exp_eq, f32Frac_eq, infMagnitude, Bool.and_eq_true, decide_eq_true_eq]
  omega

/-- The infinities have their own magnitude field. -/
theorem isInf_iff (b : F32) : isInf b = true ↔ f32Magnitude b = infMagnitude := by
  have := f32Magnitude_lt b
  simp only [isInf, f32Exp_eq, f32Frac_eq, infMagnitude, Bool.and_eq_true, decide_eq_true_eq]
  omega

/-- A packed pattern has the sign it was packed with. -/
@[simp] theorem f32Sign_pack (s : Bool) (m : Nat) : f32Sign (f32Pack s m) = s := by
  rw [f32Sign, f32Pack, BitVec.getLsbD_append, if_neg (by norm_num)]
  cases s <;> rfl

/-- And the magnitude field, when that fits. -/
theorem f32Magnitude_pack (s : Bool) {m : Nat} (hm : m < 2 ^ 31) : f32Magnitude (f32Pack s m) = m := by
  simp only [f32Magnitude, f32Pack, BitVec.extractLsb'_toNat, toNat_append_eq_add, BitVec.toNat_ofNat]
  omega

/-! ### Exact values (R64) -/

/-- The number a magnitude field stands for, in units of 2^-150. -/
def magnitudeUnits (m : Nat) : Nat :=
  (if m / 2 ^ 23 = 0 then m % 2 ^ 23 else 2 ^ 23 + m % 2 ^ 23) * 2 ^ max (m / 2 ^ 23) 1

/-- It is what the model's significand and exponent say. -/
theorem magnitudeUnits_eq (b : F32) : f32Mant b * 2 ^ f32Scale b = magnitudeUnits (f32Magnitude b) := by
  simp only [f32Mant, f32Scale, f32Exp_eq, f32Frac_eq, magnitudeUnits]

/-- A normal magnitude field, by its exponent and fraction. -/
theorem magnitudeUnits_of_normal {e f : Nat} (hf : f < 2 ^ 23) :
    magnitudeUnits ((e + 1) * 2 ^ 23 + f) = (2 ^ 23 + f) * 2 ^ (e + 1) := by
  have hdiv : ((e + 1) * 2 ^ 23 + f) / 2 ^ 23 = e + 1 := by omega
  have hmod : ((e + 1) * 2 ^ 23 + f) % 2 ^ 23 = f := by omega
  rw [magnitudeUnits, hdiv, hmod, if_neg (Nat.succ_ne_zero e), Nat.max_eq_left (Nat.le_add_left 1 e)]

/-- A significand of up to 24 bits, at the exponent of its last place, stands for that multiple of it; one that has
carried stands for it in the next exponent. -/
theorem magnitudeUnits_significand {s r : Nat} (hr : r ≤ 2 ^ 24) (hs : s = 0 ∨ 2 ^ 23 ≤ r) :
    magnitudeUnits (s * 2 ^ 23 + r) = r * 2 ^ (s + 1) := by
  by_cases hsub : r < 2 ^ 23
  · obtain rfl : s = 0 := by omega
    have hdiv : r / 2 ^ 23 = 0 := by omega
    rw [Nat.zero_mul, Nat.zero_add, magnitudeUnits, if_pos hdiv, hdiv, Nat.mod_eq_of_lt hsub]
    rfl
  · by_cases hcarry : r = 2 ^ 24
    · have hm : s * 2 ^ 23 + r = (s + 1 + 1) * 2 ^ 23 + 0 := by omega
      rw [hm, magnitudeUnits_of_normal (by norm_num), hcarry]
      ring
    · obtain ⟨f, rfl⟩ := Nat.exists_eq_add_of_le (Nat.le_of_not_lt hsub)
      have hm : s * 2 ^ 23 + (2 ^ 23 + f) = (s + 1) * 2 ^ 23 + f := by ring
      rw [hm, magnitudeUnits_of_normal (by omega)]

/-- Every magnitude field is such a significand that has not carried. -/
theorem exists_significand (m : Nat) :
    ∃ s r, m = s * 2 ^ 23 + r ∧ r < 2 ^ 24 ∧ (s = 0 ∨ 2 ^ 23 ≤ r) := by
  by_cases hsub : m < 2 ^ 23
  · exact ⟨0, m, by omega, by omega, .inl rfl⟩
  · exact ⟨m / 2 ^ 23 - 1, 2 ^ 23 + m % 2 ^ 23, by omega, by omega, .inr (by omega)⟩

/-- A greater magnitude field stands for a greater number: the next one adds one unit in the last place. -/
theorem magnitudeUnits_mono : Monotone magnitudeUnits := by
  refine monotone_nat_of_le_succ fun m => ?_
  obtain ⟨s, r, rfl, hr, hs⟩ := exists_significand m
  rw [Nat.add_assoc, magnitudeUnits_significand hr.le hs, magnitudeUnits_significand hr (by omega)]
  exact Nat.mul_le_mul_right _ (Nat.le_succ r)

/-! ### Rounding to an integer (R12) -/

/-- Rounding halves upwards looks at the value only. -/
theorem roundHalfUp_eq (m x : Nat) : roundHalfUp m x = (m * 2 ^ x + 2 ^ 149) / 2 ^ 150 := by
  unfold roundHalfUp
  by_cases hx : 150 ≤ x
  · obtain ⟨k, rfl⟩ := Nat.exists_eq_add_of_le hx
    have hval : m * 2 ^ (150 + k) = m * 2 ^ k * 2 ^ 150 := by ring
    rw [if_pos hx, Nat.add_sub_cancel_left, hval]
    omega
  · obtain ⟨k, hk⟩ := Nat.exists_eq_add_of_le (Nat.le_of_lt_succ (Nat.lt_of_not_le hx))
    have h149 : 149 - x = k := by omega
    have h150 : 150 - x = k + 1 := by omega
    have hnum : m * 2 ^ x + 2 ^ 149 = 2 ^ x * (m + 2 ^ k) := by rw [hk, pow_add]; ring
    have hden : 2 ^ 150 = 2 ^ x * 2 ^ (k + 1) := by rw [← pow_add]; congr 1; omega
    rw [if_neg hx, h149, h150, hnum, hden, Nat.mul_div_mul_left _ _ (Nat.two_pow_pos x)]

/-- The integer nearest a number given in units of 2^-150, halves upwards. -/
def nearestInt (u : Nat) : Nat := (u + 2 ^ 149) / 2 ^ 150

/-- A greater number has a greater nearest integer. -/
theorem nearestInt_mono : Monotone nearestInt := fun _ _ h =>
  Nat.div_le_div_right (Nat.add_le_add_right h _)

/-- The nearest integer is half a unit away at most. -/
theorem nearestInt_close (u : Nat) :
    2 ^ 150 * nearestInt u ≤ u + 2 ^ 149 ∧ u ≤ 2 ^ 150 * nearestInt u + 2 ^ 149 := by
  unfold nearestInt
  omega

/-- `round_half_away` is the nearest integer of the magnitude, with the sign. -/
theorem roundHalfAway_eq (b : F32) : roundHalfAway b =
    if f32Sign b then -(nearestInt (magnitudeUnits (f32Magnitude b)) : Int)
    else nearestInt (magnitudeUnits (f32Magnitude b)) := by
  rw [nearestInt, ← magnitudeUnits_eq, ← roundHalfUp_eq]
  rfl

/-! ### Rounding to binary32 (R12) -/

/-- The number of bits is the library's. -/
theorem bitLength_eq (m : Nat) : bitLength m = m.size := by
  unfold bitLength
  by_cases hm : m = 0
  · rw [if_pos hm, hm, Nat.size_zero]
  · rw [if_neg hm]
    exact le_antisymm (Nat.lt_size.mpr (Nat.log2_self_le hm)) (Nat.size_le.mpr Nat.lt_log2_self)

/-- A number that is a multiple of the last place is not rounded. -/
theorem roundShiftEven_mul (a k : Nat) : roundShiftEven (a * 2 ^ k) k = a := by
  simp [roundShiftEven, (Nat.two_pow_pos k).ne]

/-- Scaling the number and the last place alike changes nothing. -/
theorem roundShiftEven_scale (m k x : Nat) : roundShiftEven (m * 2 ^ x) (k + x) = roundShiftEven m k := by
  have hx : 0 < 2 ^ x := Nat.two_pow_pos x
  simp only [roundShiftEven, pow_add, Nat.mul_div_mul_right _ _ hx, Nat.mul_mod_mul_right, ← Nat.mul_assoc,
    Nat.mul_lt_mul_right hx, Nat.mul_left_inj hx.ne']

/-- Rounding to even takes one of the two neighbours. -/
theorem roundShiftEven_bounds (m k : Nat) :
    m / 2 ^ k ≤ roundShiftEven m k ∧ roundShiftEven m k ≤ m / 2 ^ k + 1 := by
  simp only [roundShiftEven]
  split <;> omega

/-- Rounding to even is half a last place away at most. -/
theorem roundShiftEven_close (m k : Nat) :
    2 * (2 ^ k * roundShiftEven m k) ≤ 2 * m + 2 ^ k ∧ 2 * m ≤ 2 * (2 ^ k * roundShiftEven m k) + 2 ^ k := by
  have hdiv := Nat.div_add_mod m (2 ^ k)
  have hmod := Nat.mod_lt m (Nat.two_pow_pos k)
  simp only [roundShiftEven]
  split
  · rw [Nat.mul_succ]; omega
  · omega

/-- A greater number is not rounded to a smaller one. -/
theorem roundShiftEven_mono (k : Nat) : Monotone (roundShiftEven · k) := by
  intro m n h
  show roundShiftEven m k ≤ roundShiftEven n k
  rcases (Nat.div_le_div_right (c := 2 ^ k) h).lt_or_eq with hlt | heq
  · exact ((roundShiftEven_bounds m k).2.trans hlt).trans (roundShiftEven_bounds n k).1
  · have hm := Nat.div_add_mod m (2 ^ k)
    have hn := Nat.div_add_mod n (2 ^ k)
    simp only [roundShiftEven, heq] at *
    split <;> split <;> omega

/-- The exponent field the last place of the binary32 nearest to `u` belongs to, 0 for subnormals and the least normals.
Here and below `u` is in units of 2^-300. -/
def lastPlace (u : Nat) : Nat := bitLength u - 175

/-- It is the number of bits of `u` beyond the 175 of the least normals. -/
theorem lastPlace_eq (u : Nat) : lastPlace u = u.size - 175 := congrArg (· - 175) (bitLength_eq u)

/-- The significand of that binary32, before a carry. -/
def significand (u : Nat) : Nat := roundShiftEven u (lastPlace u + 151)

/-- Its magnitude field. -/
def nearestField (u : Nat) : Nat := min (lastPlace u * 2 ^ 23 + significand u) infMagnitude

theorem nearestField_zero : nearestField 0 = 0 := by decide

/-- The model rounds a product by its exact value alone. -/
theorem roundMagnitude_eq (m x : Nat) : roundMagnitude m x = nearestField (m * 2 ^ x) := by
  by_cases hm : m = 0
  · rw [hm, Nat.zero_mul, nearestField_zero, roundMagnitude, if_pos rfl]
  · have hsize : bitLength m + x - 175 = lastPlace (m * 2 ^ x) := by
      have hbits : (m * 2 ^ x).size = m.size + x := Nat.shiftLeft_eq m x ▸ Nat.size_shiftLeft hm x
      rw [lastPlace_eq, hbits, bitLength_eq]
    have hsig (k : Nat) : (if x ≤ k then roundShiftEven m (k - x) else m * 2 ^ (x - k)) =
        roundShiftEven (m * 2 ^ x) k := by
      split
      · next hx => rw [← roundShiftEven_scale m _ x, Nat.sub_add_cancel hx]
      · next hx =>
        have hpow : m * 2 ^ x = m * 2 ^ (x - k) * 2 ^ k := by
          rw [Nat.mul_assoc, ← pow_add, Nat.sub_add_cancel (Nat.le_of_not_le hx)]
        rw [hpow, roundShiftEven_mul]
    simp only [roundMagnitude, if_neg hm, hsize, hsig]
    rfl

/-- A significand has 24 bits, or has just carried; a normal one has no fewer. -/
theorem significand_bounds (u : Nat) :
    significand u ≤ 2 ^ 24 ∧ (lastPlace u = 0 ∨ 2 ^ 23 ≤ significand u) := by
  constructor
  · have hu : u ≤ 2 ^ 24 * 2 ^ (lastPlace u + 151) := by
      rw [← pow_add]
      exact (Nat.size_le.mp (by have := lastPlace_eq u; omega)).le
    exact (roundShiftEven_mono _ hu).trans_eq (roundShiftEven_mul _ _)
  · refine or_iff_not_imp_left.mpr fun hplace => ?_
    have hu : 2 ^ 23 * 2 ^ (lastPlace u + 151) ≤ u := by
      rw [← pow_add]
      exact Nat.lt_size.mp (by have := lastPlace_eq u; omega)
    exact (roundShiftEven_mul _ _).symm.trans_le (roundShiftEven_mono _ hu)

/-- A greater number is not rounded to a smaller binary32: at one last place because rounding to even is monotone, at two
because every significand of the lower is at most the least of the higher. -/
theorem nearestField_mono : Monotone nearestField := by
  intro u w h
  have hplace : lastPlace u ≤ lastPlace w :=
    (lastPlace_eq u).trans_le ((Nat.sub_le_sub_right (Nat.size_le_size h) 175).trans_eq (lastPlace_eq w).symm)
  unfold nearestField
  refine min_le_min_right _ ?_
  rcases hplace.lt_or_eq with hlt | heq
  · obtain ⟨hu, -⟩ := significand_bounds u
    obtain ⟨-, hw⟩ := significand_bounds w
    omega
  · have hsig : significand u ≤ significand w := by
      unfold significand
      rw [heq]
      exact roundShiftEven_mono _ h
    omega

/-! ### The product with 31.0 (R12, R73, R74) -/

/-- The magnitude field of the product of 31.0 and a finite pattern with magnitude field `m`. -/
def productField (m : Nat) : Nat := nearestField (2 ^ 150 * (31 * magnitudeUnits m))

/-- The integer nearest to the magnitude of that product. -/
def roundedProduct (m : Nat) : Nat := nearestInt (magnitudeUnits (productField m))

/-- The product with 31.0 has the sign of the other factor. -/
theorem f32Mul_thirtyOne {b : F32} (hb : f32Magnitude b < infMagnitude) :
    f32Mul f32ThirtyOne b = f32Pack (f32Sign b) (productField (f32Magnitude b)) := by
  have hnan : isNaN b = false := Bool.eq_false_iff.mpr fun h => (isNaN_iff b).mp h |>.not_gt hb
  have hinf : isInf b = false := Bool.eq_false_iff.mpr fun h => hb.ne ((isInf_iff b).mp h)
  have hfactor : f32Mant f32ThirtyOne * 2 ^ f32Scale f32ThirtyOne = 31 * 2 ^ 150 := by decide
  have hvalue : f32Mant f32ThirtyOne * f32Mant b * 2 ^ (f32Scale f32ThirtyOne + f32Scale b) =
      2 ^ 150 * (31 * magnitudeUnits (f32Magnitude b)) := by
    calc _ = f32Mant f32ThirtyOne * 2 ^ f32Scale f32ThirtyOne * (f32Mant b * 2 ^ f32Scale b) := by rw [pow_add]; ring
      _ = _ := by rw [hfactor, magnitudeUnits_eq, Nat.mul_comm 31, Nat.mul_assoc]
  have hsign : f32Sign f32ThirtyOne = false := rfl
  have hnan31 : isNaN f32ThirtyOne = false := rfl
  have hinf31 : isInf f32ThirtyOne = false := rfl
  simp only [f32Mul, hnan, hinf, hnan31, hinf31, hsign, roundMagnitude_eq, hvalue, Bool.or_false,
    Bool.false_eq_true, if_false, Bool.false_xor]
  rfl

/-- The product's magnitude field is one of 31 bits. -/
theorem productField_lt (m : Nat) : productField m < 2 ^ 31 :=
  (Nat.min_le_right _ _).trans_lt (by decide)

theorem productField_mono : Monotone productField := fun _ _ h =>
  nearestField_mono (Nat.mul_le_mul_left _ (Nat.mul_le_mul_left _ (magnitudeUnits_mono h)))

theorem roundedProduct_mono : Monotone roundedProduct :=
  nearestInt_mono.comp (magnitudeUnits_mono.comp productField_mono)

/-- The magnitude field of 1.0. -/
def oneField : Nat := 0x3F800000

/-- 31.0 times 1.0 is 31.0. -/
theorem productField_one : productField oneField = 0x41F80000 := by
  have hmul : f32Mul f32ThirtyOne f32One = f32ThirtyOne := by decide
  rw [f32Mul_thirtyOne (by decide)] at hmul
  exact (f32Magnitude_pack _ (productField_lt _)).symm.trans (congrArg f32Magnitude hmul)

theorem roundedProduct_zero : roundedProduct 0 = 0 := by decide

theorem roundedProduct_one : roundedProduct oneField = 31 := by
  rw [roundedProduct, productField_one]
  decide

/-- The rounded product of 31.0 and a finite pattern. -/
theorem roundHalfAway_product {b : F32} (hb : f32Magnitude b < infMagnitude) :
    roundHalfAway (f32Mul f32ThirtyOne b) =
      if f32Sign b then -(roundedProduct (f32Magnitude b) : Int) else roundedProduct (f32Magnitude b) := by
  rw [f32Mul_thirtyOne hb, roundHalfAway_eq, f32Sign_pack, f32Magnitude_pack _ (productField_lt _)]
  rfl

/-! ### The clamped brightness (R73) -/

/-- The brightness of CLAMP mode, before its product with 31.0. -/
def clampedBrightness (b : F32) : F32 := f32Min (f32Max b f32Zero) f32One

/-- The magnitude field of the clamped brightness: the place of `b` in the order, cut to the places from 0.0 to 1.0. -/
def clampedField (b : F32) : Nat := min (f32Key b).toNat oneField

theorem f32Key_zero : f32Key f32Zero = 0 := by decide

theorem f32Key_one : f32Key f32One = oneField := by decide

/-- A pattern above 0.0 is positive, and its magnitude field is its place in the order. -/
theorem f32Magnitude_of_pos {b : F32} (hb : 0 < f32Key b) :
    f32Sign b = false ∧ f32Magnitude b = (f32Key b).toNat := by
  unfold f32Key at *
  cases hs : f32Sign b
  · simp
  · simp only [hs, if_true] at hb
    omega

/-- The clamped brightness is never negative. -/
theorem clampedBrightness_eq (b : F32) :
    f32Sign (clampedBrightness b) = false ∧ f32Magnitude (clampedBrightness b) = clampedField b := by
  by_cases hle : f32Key b ≤ 0
  · have hclamp : clampedBrightness b = f32Zero := by
      simp [clampedBrightness, f32Max, f32Min, f32Le, f32Key_zero, f32Key_one, hle]
    have hfield : clampedField b = 0 := by unfold clampedField; omega
    rw [hclamp, hfield]
    exact ⟨rfl, rfl⟩
  · by_cases hlt : f32Key b ≤ oneField
    · have hclamp : clampedBrightness b = b := by
        simp [clampedBrightness, f32Max, f32Min, f32Le, f32Key_zero, f32Key_one, hle, hlt]
      obtain ⟨hsign, hmag⟩ := f32Magnitude_of_pos (lt_of_not_ge hle)
      have hfield : clampedField b = (f32Key b).toNat := by unfold clampedField; omega
      rw [hclamp, hfield]
      exact ⟨hsign, hmag⟩
    · have hclamp : clampedBrightness b = f32One := by
        simp [clampedBrightness, f32Max, f32Min, f32Le, f32Key_zero, f32Key_one, hle, hlt]
      have hfield : clampedField b = oneField := by unfold clampedField; omega
      rw [hclamp, hfield]
      exact ⟨rfl, rfl⟩

theorem clampedField_le (b : F32) : clampedField b ≤ oneField := Nat.min_le_right _ _

/-- A field up to that of 1.0 is that of a finite pattern. -/
theorem lt_infMagnitude_of_le_one {m : Nat} (hm : m ≤ oneField) : m < infMagnitude := hm.trans_lt (by decide)

/-- Up to 1.0, the rounded product is at most 31. -/
theorem roundedProduct_le {m : Nat} (hm : m ≤ oneField) : roundedProduct m ≤ 31 :=
  (roundedProduct_mono hm).trans_eq roundedProduct_one

/-- CLAMP mode gives the rounded product of the clamped brightness (R73). -/
theorem quantizeClamp_eq {b : F32} (hb : isNaN b = false) :
    quantizeClamp b = BitVec.ofNat 5 (roundedProduct (clampedField b)) := by
  obtain ⟨hsign, hmag⟩ := clampedBrightness_eq b
  have hround : roundHalfAway (f32Mul f32ThirtyOne (clampedBrightness b)) = roundedProduct (clampedField b) := by
    rw [roundHalfAway_product (hmag ▸ lt_infMagnitude_of_le_one (clampedField_le b)), hsign, hmag]
    rfl
  rw [quantizeClamp, hb, if_neg Bool.false_ne_true]
  exact (congrArg (BitVec.ofInt 5) hround).trans (BitVec.ofInt_natCast 5 _)

/-- As a number it is that product itself, which fits the 5 bits. -/
theorem quantizeClamp_toNat {b : F32} (hb : isNaN b = false) :
    (quantizeClamp b).toNat = roundedProduct (clampedField b) := by
  rw [quantizeClamp_eq hb, BitVec.toNat_ofNat]
  exact Nat.mod_eq_of_lt ((roundedProduct_le (clampedField_le b)).trans_lt (by norm_num))

/-- Settles O10: at most 0.0 the clamped field is that of 0.0, and at least 1.0 that of 1.0. -/
theorem clampedBrightnessCorners : Obligations.ClampedBrightnessCorners := by
  intro b
  refine ⟨fun hnan => ?_, fun hb hge => ?_, fun hb hle => ?_⟩
  · rw [quantizeClamp, hnan, if_pos rfl]
  · have hfield : clampedField b = oneField := by
      simp only [f32Le, f32Key_one, decide_eq_true_eq] at hge
      unfold clampedField
      omega
    rw [quantizeClamp_eq hb, hfield, roundedProduct_one]
    rfl
  · have hfield : clampedField b = 0 := by
      simp only [f32Le, f32Key_zero, decide_eq_true_eq] at hle
      unfold clampedField
      omega
    rw [quantizeClamp_eq hb, hfield, roundedProduct_zero]
    rfl

/-- Settles O12: the clamped field, the product's rounding and the integer rounding are each monotone. -/
theorem clampedBrightnessIsMonotone : Obligations.ClampedBrightnessIsMonotone := by
  refine ⟨fun a b ha hb hle => ?_, by decide, by decide, by decide⟩
  simp only [f32Le, decide_eq_true_eq] at hle
  rw [quantizeClamp_toNat ha, quantizeClamp_toNat hb]
  exact roundedProduct_mono (min_le_min_right _ (Int.toNat_le_toNat hle))

/-! ### WRAP mode (R74), and both modes from 0.0 to 1.0 (R75) -/

/-- Where R74 leaves the field open it is the free value. -/
theorem quantizeWrap_open {b : F32} (h : isNaN b = true ∨ isInf (f32Mul f32ThirtyOne b) = true ∨
    roundHalfAway (f32Mul f32ThirtyOne b) < 0 ∨ 255 < roundHalfAway (f32Mul f32ThirtyOne b)) :
    quantizeWrap b = Config.wrapOutOfRange b := by
  unfold quantizeWrap
  rcases h with h | h | h | h <;> simp [h]

/-- Elsewhere it is the rounded product mod 32. -/
theorem quantizeWrap_settled {b : F32} (hb : isNaN b = false) (hinf : isInf (f32Mul f32ThirtyOne b) = false)
    (hlow : 0 ≤ roundHalfAway (f32Mul f32ThirtyOne b)) (hhigh : roundHalfAway (f32Mul f32ThirtyOne b) ≤ 255) :
    quantizeWrap b = BitVec.ofInt 5 (roundHalfAway (f32Mul f32ThirtyOne b) % 32) := by
  simp [quantizeWrap, hb, hinf, not_lt.mpr hlow, not_lt.mpr hhigh]

/-- Settles O14: the two branches of R74, and table T1 by evaluation. -/
theorem wrapModeOnEveryPattern : Obligations.WrapModeOnEveryPattern := by
  refine ⟨fun b => ⟨quantizeWrap_open, fun hb hinf hlow hhigh => ?_⟩, by decide, fun b hb => quantizeWrap_open ?_⟩
  · rw [quantizeWrap_settled hb hinf hlow hhigh, BitVec.toNat_ofInt]
    omega
  · simp only [List.mem_cons, List.not_mem_nil, or_false] at hb
    rcases hb with rfl | rfl | rfl | rfl | rfl | rfl | rfl | rfl
    · exact .inr (.inr (.inr (by decide)))
    · exact .inr (.inr (.inr (by decide)))
    · exact .inr (.inl (by decide))
    · exact .inr (.inr (.inl (by decide)))
    · exact .inr (.inl (by decide))
    · exact .inr (.inl (by decide))
    · exact .inl (by decide)
    · exact .inl (by decide)

/-- From 0.0 to 1.0 the magnitude field is the clamped one, and only −0.0 has a sign. -/
theorem unitRange_field {b : F32} (hlow : f32Le f32Zero b = true) (hhigh : f32Le b f32One = true) :
    f32Magnitude b = clampedField b ∧ (f32Sign b = true → f32Magnitude b = 0) := by
  simp only [f32Le, f32Key_zero, f32Key_one, decide_eq_true_eq] at hlow hhigh
  have hkey : f32Key b = if f32Sign b then -(f32Magnitude b : Int) else f32Magnitude b := rfl
  unfold clampedField
  cases hs : f32Sign b with
  | false =>
    rw [hs, if_neg Bool.false_ne_true] at hkey
    exact ⟨by omega, nofun⟩
  | true =>
    rw [hs, if_pos rfl] at hkey
    exact ⟨by omega, fun _ => by omega⟩

/-- So both signs of the product's rounding are the same (R75). -/
theorem roundHalfAway_unitRange {b : F32} (hlow : f32Le f32Zero b = true) (hhigh : f32Le b f32One = true) :
    roundHalfAway (f32Mul f32ThirtyOne b) = roundedProduct (clampedField b) := by
  obtain ⟨hfield, hsign⟩ := unitRange_field hlow hhigh
  rw [roundHalfAway_product (hfield ▸ lt_infMagnitude_of_le_one (clampedField_le b)), hfield]
  cases hs : f32Sign b with
  | false => rfl
  | true => rw [← hfield, hsign hs, roundedProduct_zero]; rfl

/-- The product of 31.0 and a brightness from 0.0 to 1.0 is finite. -/
theorem isInf_product_unitRange {b : F32} (hlow : f32Le f32Zero b = true) (hhigh : f32Le b f32One = true) :
    isInf (f32Mul f32ThirtyOne b) = false := by
  have hle : f32Magnitude b ≤ oneField := (unitRange_field hlow hhigh).1.trans_le (clampedField_le b)
  have hprod : productField (f32Magnitude b) ≤ 0x41F80000 := (productField_mono hle).trans_eq productField_one
  rw [Bool.eq_false_iff, Ne, isInf_iff, f32Mul_thirtyOne (lt_infMagnitude_of_le_one hle),
    f32Magnitude_pack _ (productField_lt _)]
  exact (hprod.trans_lt (by decide)).ne

/-- Settles O11: from 0.0 to 1.0 clamping changes no magnitude, and the product stays in the window WRAP mode settles. -/
theorem modesAgreeOnTheUnitRange : Obligations.ModesAgreeOnTheUnitRange := by
  refine ⟨fun b hb hlow hhigh => ⟨roundedProduct (clampedField b), roundedProduct_le (clampedField_le b),
    roundHalfAway_unitRange hlow hhigh, quantizeClamp_eq hb, ?_⟩, by decide, by decide, by decide, by decide⟩
  have hle := roundedProduct_le (clampedField_le b)
  have hround := roundHalfAway_unitRange hlow hhigh
  rw [quantizeWrap_settled hb (isInf_product_unitRange hlow hhigh) (by omega) (by omega), hround,
    Int.emod_eq_of_lt (by omega) (by omega), BitVec.ofInt_natCast]

/-! ### How close the field is (R12, R64, R73) -/

/-- Below the overflow, the binary32 nearest to `u` is the multiple of the last place that rounding to even takes. -/
theorem magnitudeUnits_nearestField {u : Nat} (hu : nearestField u < infMagnitude) :
    magnitudeUnits (nearestField u) = significand u * 2 ^ (lastPlace u + 1) := by
  obtain ⟨hsig, hnormal⟩ := significand_bounds u
  have hfield : nearestField u = lastPlace u * 2 ^ 23 + significand u := by unfold nearestField at *; omega
  rw [hfield, magnitudeUnits_significand hsig hnormal]

/-- Up to 1.0 the product with 31.0 lies below 32, so its last place belongs to an exponent field up to 130. -/
theorem lastPlace_product_le {m : Nat} (hm : m ≤ oneField) : lastPlace (2 ^ 150 * (31 * magnitudeUnits m)) ≤ 130 := by
  have hunits : magnitudeUnits m ≤ 2 ^ 150 := (magnitudeUnits_mono hm).trans_eq (by decide)
  have hlt : 31 * magnitudeUnits m < 2 ^ 155 := by omega
  have hproduct : 2 ^ 150 * (31 * magnitudeUnits m) < 2 ^ (150 + 155) :=
    pow_add 2 150 155 ▸ Nat.mul_lt_mul_of_pos_left hlt (Nat.two_pow_pos 150)
  exact (lastPlace_eq _).trans_le (Nat.sub_le_sub_right (Nat.size_le.mpr hproduct) 175)

/-- So the rounding of the product is off by 2^-20 at most. -/
theorem product_close {m : Nat} (hm : m ≤ oneField) :
    magnitudeUnits (productField m) ≤ 31 * magnitudeUnits m + 2 ^ 130 ∧
    31 * magnitudeUnits m ≤ magnitudeUnits (productField m) + 2 ^ 130 := by
  have hfinite : productField m < infMagnitude :=
    ((productField_mono hm).trans_eq productField_one).trans_lt (by decide)
  have hunits := magnitudeUnits_nearestField hfinite
  have hclose := roundShiftEven_close (2 ^ 150 * (31 * magnitudeUnits m))
    (lastPlace (2 ^ 150 * (31 * magnitudeUnits m)) + 151)
  have hplace : 2 ^ (lastPlace (2 ^ 150 * (31 * magnitudeUnits m)) + 1) ≤ 2 ^ 131 :=
    Nat.pow_le_pow_right two_pos (Nat.succ_le_succ (lastPlace_product_le hm))
  have hscale (p r : Nat) : 2 ^ (p + 151) * r = 2 ^ 150 * (r * 2 ^ (p + 1)) := by ring
  have hunit (p : Nat) : 2 ^ (p + 151) = 2 ^ 150 * 2 ^ (p + 1) := by ring
  rw [← significand, hscale, ← hunits, hunit, ← productField] at hclose
  omega

/-- Settles O13: 1/2 for the rounding to an integer, and 2^-20 for that of the product. -/
theorem fieldIsCloseToThirtyOneTimesBrightness : Obligations.FieldIsCloseToThirtyOneTimesBrightness := by
  intro b hb hlow hhigh _
  obtain ⟨hplow, hphigh⟩ := product_close (clampedField_le b)
  obtain ⟨hrlow, hrhigh⟩ := nearestInt_close (magnitudeUnits (productField (clampedField b)))
  rw [Nat.mul_assoc, magnitudeUnits_eq, (unitRange_field hlow hhigh).1, quantizeClamp_toNat hb, roundedProduct]
  omega

end Sys2Proof.Machine
end

section
/-!
PROOFS. Family `40_led_encoder.md`, the frames (R77 to R87) and the commands that load them (R72, R88, R94).
-/

namespace Sys2Proof.Machine

/-! ### Bytes and pulses (R77, R80 to R85) -/

/-- Settles O15: `111` above the five bits of the field, by its 32 values. -/
theorem controlByteHoldsTheField : Obligations.ControlByteHoldsTheField := by
  unfold Obligations.ControlByteHoldsTheField
  decide

/-- Settles O16: the byte's bits from bit 7 down are a list of eight, each sent as its write and its pulse. -/
theorem bytesAreSentMostSignificantBitFirst : Obligations.BytesAreSentMostSignificantBitFirst :=
  ⟨fun _ => rfl, by decide⟩

/-- Copies of a list are the library's (R10). -/
theorem repeatOps_eq (n : Nat) (ops : List Prim) : repeatOps n ops = (List.replicate n ops).flatten := by
  induction n with
  | zero => rfl
  | succ n ih => rw [repeatOps, ih, List.replicate_succ, List.flatten_cons]

/-- Settles O17: the pulses are copies of PULSE. -/
theorem startAndEndFramesAreClockedOut : Obligations.StartAndEndFramesAreClockedOut :=
  ⟨fun n => congrArg (_ :: ·) (repeatOps_eq n pulse), fun _ m => congrArg (_ :: ·) (repeatOps_eq m pulse)⟩

/-- The frame: its data are the bits of its word (R61), and its start frame is an end frame at level 0 (R85). -/
theorem frameOps_eq (c : Cfg) (f : Field5) (b g r : Byte) : frameOps c f b g r =
    endOps false c.startPulses ++ bitsOps (bitsMsbFirst (frame32 f b g r)) ++ endOps c.endLevel c.endPulses := by
  rw [frameOps, dataOps_eq_bitsOps]
  rfl

/-! ### The lines a frame writes (R86) -/

/-- A pulse writes the clock. -/
theorem pulse_writes {l : OutLine} {v : Bool} (h : .w l v ∈ pulse) : l = .clk := by
  simp only [pulse, List.mem_cons, Prim.w.injEq, reduceCtorEq, List.not_mem_nil, or_false, false_or] at h
  rcases h with ⟨hl, -⟩ | ⟨hl, -⟩ <;> exact hl

/-- So do pulses. -/
theorem repeatOps_pulse_writes {n : Nat} {l : OutLine} {v : Bool} (h : .w l v ∈ repeatOps n pulse) : l = .clk := by
  rw [repeatOps_eq, List.mem_flatten] at h
  obtain ⟨ops, hops, h⟩ := h
  exact pulse_writes (List.eq_of_mem_replicate hops ▸ h)

/-- Bits write the data line and the clock. -/
theorem bitsOps_writes {vs : List Bool} {l : OutLine} {v : Bool} (h : .w l v ∈ bitsOps vs) :
    l = .data ∨ l = .clk := by
  induction vs with
  | nil => cases h
  | cons w vs ih =>
    rcases List.mem_append.mp h with h | h
    · rcases List.mem_cons.mp h with h | h
      · exact .inl (Prim.w.inj h).1
      · exact .inr (pulse_writes h)
    · exact ih h

/-- So does an end frame. -/
theorem endOps_writes {l : OutLine} {level v : Bool} {m : Nat} (h : .w l v ∈ endOps level m) :
    l = .data ∨ l = .clk := by
  rcases List.mem_cons.mp h with h | h
  · exact .inl (Prim.w.inj h).1
  · exact .inr (repeatOps_pulse_writes h)

/-- A frame writes the data line and the clock only (R86). -/
theorem frameOps_writes {c : Cfg} {f : Field5} {b g r : Byte} {l : OutLine} {v : Bool}
    (h : .w l v ∈ frameOps c f b g r) : l = .data ∨ l = .clk := by
  rw [frameOps_eq, List.mem_append, List.mem_append] at h
  rcases h with (h | h) | h
  · exact endOps_writes h
  · exact bitsOps_writes h
  · exact endOps_writes h

/-- The field SET_LED computes, as a choice between the two quantizers (R73, R74, R88). -/
theorem brightnessField_eq (c : Cfg) (b : F32) :
    brightnessField c b = if c.brightnessMode = .clamp then quantizeClamp b else quantizeWrap b := by
  unfold brightnessField
  cases c.brightnessMode <;> rfl

/-- A SET_LED's frame, with the quantizer its configuration selects (R86, R88). -/
theorem commandOps_setLed (c : Cfg) (r g b : Byte) (br : F32) : commandOps c (.setLed r g b br) =
    startOps c.startPulses ++
    dataOps (0b111#3 ++ (if c.brightnessMode = .clamp then quantizeClamp br else quantizeWrap br)) b g r ++
    endOps c.endLevel c.endPulses := by
  rw [← brightnessField_eq]
  rfl

/-- Settles O18: no primitive of the three frames writes another line than 15 and 14. -/
theorem frameIsStartDataEndOnTwoLines : Obligations.FrameIsStartDataEndOnTwoLines := by
  refine fun c r g b br => ⟨commandOps_setLed c r g b br, fun l v h => ?_⟩
  rcases frameOps_writes h with rfl | rfl
  · exact .inl rfl
  · exact .inr rfl

/-! ### The counts of a frame (R87) -/

/-- How many primitives of a row of pulses have a property. -/
theorem countP_repeatOps (p : Prim → Bool) (n : Nat) (ops : List Prim) :
    (repeatOps n ops).countP p = n * ops.countP p := by
  induction n with
  | zero => simp [repeatOps]
  | succ n ih => rw [repeatOps, List.countP_append, ih]; ring

/-- How many of a row of bits have one that does not look at the level of the data line. -/
theorem countP_bitsOps {p : Prim → Bool} (hp : p (.w .data true) = p (.w .data false)) (vs : List Bool) :
    (bitsOps vs).countP p = vs.length * (bitOps false).countP p := by
  induction vs with
  | nil => simp [bitsOps]
  | cons v vs ih =>
    have hv : (bitOps v).countP p = (bitOps false).countP p := by
      cases v with
      | false => rfl
      | true => simp only [bitOps, List.countP_cons, hp]
    rw [bitsOps, List.countP_append, ih, hv, List.length_cons]
    ring

/-- How many of an end frame have one. -/
theorem countP_endOps {p : Prim → Bool} (hp : p (.w .data true) = p (.w .data false)) (l : Bool) (m : Nat) :
    (endOps l m).countP p = m * pulse.countP p + [Prim.w .data false].countP p := by
  cases l <;> simp only [endOps, List.countP_cons, countP_repeatOps, hp, List.countP_nil, Nat.zero_add]

/-- How many of a frame have one: those of `N + 32 + M` pulses and of 34 writes of the data line. -/
theorem countP_frameOps {p : Prim → Bool} (hp : p (.w .data true) = p (.w .data false)) (c : Cfg) (f : Field5)
    (b g r : Byte) : (frameOps c f b g r).countP p =
      (c.startPulses + 32 + c.endPulses) * pulse.countP p + 34 * [Prim.w .data false].countP p := by
  have hbit : (bitOps false).countP p = pulse.countP p + [Prim.w .data false].countP p := by
    simp only [bitOps, List.countP_cons, List.countP_nil, Nat.zero_add]
  rw [frameOps_eq, List.countP_append, List.countP_append, countP_bitsOps hp, length_bitsMsbFirst,
    countP_endOps hp, countP_endOps hp, hbit]
  ring

/-- The count, for a property that `k` primitives of a pulse have and `d` of a write of the data line. -/
theorem length_filter_frameOps (p : Prim → Bool) (k d : Nat) (hp : p (.w .data true) = p (.w .data false))
    (hk : pulse.countP p = k) (hd : [Prim.w .data false].countP p = d) (c : Cfg) (f : Field5) (b g r : Byte) :
    ((frameOps c f b g r).filter p).length = (c.startPulses + 32 + c.endPulses) * k + 34 * d := by
  rw [← List.countP_eq_length_filter, countP_frameOps hp, hk, hd]

/-- The dwells of a frame: two to a pulse. -/
theorem dwellsOf_frameOps (c : Cfg) (f : Field5) (b g r : Byte) :
    dwellsOf (frameOps c f b g r) = 2 * (c.startPulses + 32 + c.endPulses) :=
  (length_filter_frameOps (! ·.isWrite) 2 0 rfl rfl rfl c f b g r).trans (by ring)

/-! ### The number of each write (R87) -/

theorem writesOf_append (xs ys : List Prim) : writesOf (xs ++ ys) = writesOf xs ++ writesOf ys :=
  List.filter_append xs ys

/-- Each pulse writes the clock high and low. -/
theorem writesOf_pulses_getElem {n j : Nat} (hj : j < n) :
    (writesOf (repeatOps n pulse))[2 * j]? = some (.w .clk true) ∧
    (writesOf (repeatOps n pulse))[2 * j + 1]? = some (.w .clk false) := by
  induction n generalizing j with
  | zero => omega
  | succ n ih =>
    cases j with
    | zero => exact ⟨rfl, rfl⟩
    | succ j => exact ih (Nat.lt_of_succ_lt_succ hj)

/-- An end frame writes the data line and then its pulses. -/
theorem writesOf_endOps_getElem (l : Bool) {m j : Nat} (hj : j < m) :
    (writesOf (endOps l m))[1 + 2 * j]? = some (.w .clk true) ∧
    (writesOf (endOps l m))[2 + 2 * j]? = some (.w .clk false) := by
  rw [Nat.add_comm 1, Nat.add_comm 2]
  exact writesOf_pulses_getElem hj

/-- Each bit writes the data line, and the clock high and low. -/
theorem writesOf_bitsOps_getElem {vs : List Bool} {j : Nat} {v : Bool} (hv : vs[j]? = some v) :
    (writesOf (bitsOps vs))[3 * j]? = some (.w .data v) ∧
    (writesOf (bitsOps vs))[3 * j + 1]? = some (.w .clk true) ∧
    (writesOf (bitsOps vs))[3 * j + 2]? = some (.w .clk false) := by
  induction vs generalizing j with
  | nil => cases hv
  | cons w vs ih =>
    cases j with
    | zero =>
      obtain rfl : w = v := Option.some.inj hv
      exact ⟨rfl, rfl, rfl⟩
    | succ j => exact ih hv

/-- The writes of an end frame. -/
theorem length_writesOf_endOps (l : Bool) (m : Nat) : (writesOf (endOps l m)).length = 2 * m + 1 := by
  have hpulse : pulse.countP Prim.isWrite = 2 := rfl
  have hdata : [Prim.w .data false].countP Prim.isWrite = 1 := rfl
  rw [writesOf, ← List.countP_eq_length_filter, countP_endOps rfl, hpulse, hdata, Nat.mul_comm]

/-- The writes of a data frame. -/
theorem length_writesOf_bitsOps (vs : List Bool) : (writesOf (bitsOps vs)).length = 3 * vs.length := by
  have hbit : (bitOps false).countP Prim.isWrite = 3 := rfl
  rw [writesOf, ← List.countP_eq_length_filter, countP_bitsOps rfl, hbit, Nat.mul_comm]

section
variable (c : Cfg) (f : Field5) (b g r : Byte)

/-- A frame's first writes are those of its start frame. -/
theorem writesOf_frameOps_start {i : Nat} (hi : i < 2 * c.startPulses + 1) :
    (writesOf (frameOps c f b g r))[i]? = (writesOf (endOps false c.startPulses))[i]? := by
  rw [frameOps_eq, List.append_assoc, writesOf_append, List.getElem?_append_left]
  rwa [length_writesOf_endOps]

/-- The next 96 are those of its data bits. -/
theorem writesOf_frameOps_data {i : Nat} (hi : i < 96) :
    (writesOf (frameOps c f b g r))[2 * c.startPulses + 1 + i]? =
      (writesOf (bitsOps (bitsMsbFirst (frame32 f b g r))))[i]? := by
  have hstart := length_writesOf_endOps false c.startPulses
  have hdata := length_writesOf_bitsOps (bitsMsbFirst (frame32 f b g r))
  rw [length_bitsMsbFirst] at hdata
  rw [frameOps_eq, List.append_assoc, writesOf_append, writesOf_append, List.getElem?_append_right (by omega),
    List.getElem?_append_left (by omega), hstart, Nat.add_sub_cancel_left]

/-- The last are those of its end frame. -/
theorem writesOf_frameOps_end (i : Nat) :
    (writesOf (frameOps c f b g r))[2 * c.startPulses + 97 + i]? = (writesOf (endOps c.endLevel c.endPulses))[i]? := by
  have hlen : (writesOf (endOps false c.startPulses) ++ writesOf (bitsOps (bitsMsbFirst (frame32 f b g r)))).length =
      2 * c.startPulses + 97 := by
    rw [List.length_append, length_writesOf_endOps, length_writesOf_bitsOps, length_bitsMsbFirst]
  rw [frameOps_eq, writesOf_append, writesOf_append, List.getElem?_append_right (by omega), hlen,
    Nat.add_sub_cancel_left]

end

/-- Bit `j` of a word, counted from the first sent, is its bit `n - 1 - j` (R40). -/
theorem bitsMsbFirst_getElem {n : Nat} (w : BitVec n) {j : Nat} (hj : j < n) :
    (bitsMsbFirst w)[j]? = some (w.getLsbD (n - 1 - j)) := by
  simp [bitsMsbFirst, hj]

/-- Settles O19: each count is that of the pulses and of the data line's writes; each write lies in one of the three
frames, where it is counted from the frame's own first write. -/
theorem frameCountsAndWriteNumbers : Obligations.FrameCountsAndWriteNumbers := by
  intro c f b g r
  refine ⟨?_, ?_, ?_, dwellsOf_frameOps c f b g r, ?_, ?_, ?_, fun j hj => ?_, fun j hj => ?_, ?_, fun j hj => ?_⟩
  · exact (length_filter_frameOps Prim.isWrite 2 1 rfl rfl rfl c f b g r).trans (by ring)
  · exact (length_filter_frameOps (Prim.writesLine .data) 0 1 rfl rfl rfl c f b g r).trans (by ring)
  · exact (length_filter_frameOps (Prim.writesLine .clk) 2 0 rfl rfl rfl c f b g r).trans (by ring)
  · exact (length_filter_frameOps Prim.isClockRise 1 0 rfl rfl rfl c f b g r).trans (by ring)
  · have hall := length_filter_frameOps (fun _ => true) 4 1 rfl rfl rfl c f b g r
    rw [List.filter_true] at hall
    exact hall.trans (by ring)
  · exact writesOf_frameOps_start c f b g r (Nat.succ_pos _)
  · obtain ⟨hrise, hfall⟩ := writesOf_endOps_getElem false hj
    exact ⟨(writesOf_frameOps_start c f b g r (by omega)).trans hrise,
      (writesOf_frameOps_start c f b g r (by omega)).trans hfall⟩
  · obtain ⟨hdata, hrise, hfall⟩ := writesOf_bitsOps_getElem (bitsMsbFirst_getElem (frame32 f b g r) hj)
    have hnum (i : Nat) : 2 * c.startPulses + (1 + i) + 3 * j = 2 * c.startPulses + 1 + (3 * j + i) := by omega
    refine ⟨?_, ?_, ?_⟩
    · exact (writesOf_frameOps_data c f b g r (by omega)).trans hdata
    · exact (hnum 1 ▸ writesOf_frameOps_data c f b g r (by omega)).trans hrise
    · exact (hnum 2 ▸ writesOf_frameOps_data c f b g r (by omega)).trans hfall
  · exact writesOf_frameOps_end c f b g r 0
  · obtain ⟨hrise, hfall⟩ := writesOf_endOps_getElem c.endLevel hj
    have hnum (i : Nat) : 2 * c.startPulses + (97 + i) + 2 * j = 2 * c.startPulses + 97 + (i + 2 * j) := by omega
    exact ⟨(hnum 1 ▸ writesOf_frameOps_end c f b g r (1 + 2 * j)).trans hrise,
      (hnum 2 ▸ writesOf_frameOps_end c f b g r (2 + 2 * j)).trans hfall⟩

/-! ### Commands that load a frame (R72, R83 to R88, R94, R122) -/

/-- A command presented after a failed construction is answered by its error (R122). -/
theorem State.startCommand_of_failed {s : State} (hb : s.cmd.busy = false) (hi : s.init = .exportFailed) (i : Instr)
    (ops : List Prim) : s.startCommand i ops = .next (s.raise .lineExportFailure 0) := by
  simp [State.startCommand, hb, hi]

/-- Settles O21: SET_LED is a host command, which begins on a free port or is answered by its error. -/
theorem setLedLoadsItsFrame : Obligations.SetLedLoadsItsFrame := by
  intro s r g b br hb
  refine ⟨fun hi => ?_, fun hi => ?_⟩
  · rw [exec_of_free hb hi (i := .setLed r g b br) rfl, Instr.expand, commandOps_setLed]
    rfl
  · rw [exec_command s (i := .setLed r g b br) rfl, State.startCommand_of_failed hb hi]
    rfl

/-- A wire frame's primitives join those of the command in progress (log 7). -/
theorem State.emitFrame_of_busy {s : State} (hb : s.cmd.busy = true) (i : Instr) (ops : List Prim) :
    s.emitFrame i ops = .next (s.appendOps ops) := by
  simp [State.emitFrame, hb]

/-- On a free port of a ready block they begin as a command of their own (log 7). -/
theorem State.emitFrame_of_free {s : State} (hb : s.cmd.busy = false) (hi : s.init = .ready) (i : Instr)
    (ops : List Prim) : s.emitFrame i ops = .next (s.begin i ops) := by
  simp [State.emitFrame, hb, hi]

/-- After a failed construction they are not performed (R24, R122). -/
theorem State.emitFrame_of_failed {s : State} (hb : s.cmd.busy = false) (hi : s.init = .exportFailed) (i : Instr)
    (ops : List Prim) : s.emitFrame i ops = .next (s.raise .lineExportFailure 0) := by
  simp [State.emitFrame, hb, hi]

/-- Settles O24: each wire frame loads its primitives in the one way wire frames do. -/
theorem wireFramesLoadTheirPrimitives : Obligations.WireFramesLoadTheirPrimitives := by
  intro s i ops hi
  have hexec : exec i s = s.emitFrame i ops := by
    rcases hi with ⟨n, rfl, rfl⟩ | ⟨f, b, g, r, rfl, rfl⟩ | ⟨l, m, rfl, rfl⟩ <;> rfl
  rw [hexec]
  exact ⟨fun hb => State.emitFrame_of_busy hb i ops, fun hb hi => State.emitFrame_of_free hb hi i ops,
    fun hb hi => State.emitFrame_of_failed hb hi i ops⟩

/-- In a command that has just begun with some primitives, it is as if the command had begun with the wire frame's too. -/
theorem exec_wireFrame_begin {s : State} {i j : Instr} {done ops : List Prim}
    (hi : exec i (s.begin j done) = (s.begin j done).emitFrame i ops) :
    exec i (s.begin j done) = .next (s.begin j (done ++ ops)) :=
  hi.trans (State.emitFrame_of_busy rfl i ops)

/-- Settles O25: the three wire frames find the command begun, and each adds its part of the frame. -/
theorem setLedIsItsThreeFrames : Obligations.SetLedIsItsThreeFrames := by
  intro s r g b br hb hi
  refine ⟨_, _, _, exec_wireFrame_begin rfl, exec_wireFrame_begin rfl, exec_wireFrame_begin rfl, ?_⟩
  rw [exec_of_free hb hi (i := .setLed r g b br) rfl, Instr.expand, commandOps_setLed]
  rfl

end Sys2Proof.Machine
end

section
/-!
PROOFS. Family `40_led_encoder.md`, the executor: its step on each primitive (R89, R90, R92, R93), and whole frames played
to their end or to their first failed write (R91, R131, R153, R159).
-/

namespace Sys2Proof.Machine

/-! ### One step of the executor (R89) -/

/-- Without a command there is no step. -/
theorem State.execStep_of_idle {s : State} (hb : s.cmd.busy = false) (a : Answer) : s.execStep a = s := by
  simp [State.execStep, hb]

/-- A dwell that is not over is waited for (R93). -/
theorem State.execStep_of_waiting {s : State} {ops : List Prim} (hb : s.cmd.busy = true)
    (ho : s.cmd.encOps = .d :: ops) (hwait : s.now < s.cmd.dwellFrom + s.cfg.dwellNs) (a : Answer) :
    s.execStep a = s := by
  simp [State.execStep, hb, ho, State.dwellOver, hwait]

/-- A dwell that is over is done (R93). -/
theorem State.execStep_dwell {s : State} {ops : List Prim} (hb : s.cmd.busy = true)
    (ho : s.cmd.encOps = .d :: ops) (hover : s.cmd.dwellFrom + s.cfg.dwellNs ≤ s.now) (a : Answer) :
    s.execStep a = s.dwellDone.finishPrim ops := by
  simp [State.execStep, hb, ho, State.dwellOver, hover]

/-- A write answered `ok` is done (R89). -/
theorem State.execStep_write_ok {s : State} {ops : List Prim} {l : OutLine} {v : Bool} (hb : s.cmd.busy = true)
    (ho : s.cmd.encOps = .w l v :: ops) : s.execStep .ok = (s.lineWrite l v .ok).finishPrim ops := by
  simp [State.execStep, hb, ho]

/-- A write answered `fail` ends the command (R90). -/
theorem State.execStep_write_fail {s : State} {ops : List Prim} {l : OutLine} {v : Bool} (hb : s.cmd.busy = true)
    (ho : s.cmd.encOps = .w l v :: ops) :
    s.execStep .fail = (s.lineWrite l v .fail).raise .lineWriteFailure l.number := by
  simp [State.execStep, hb, ho]

/-- The executor's move: what its step writes, and the rest of the script. -/
theorem step_of_execute {s : State} {a : Answer} {rest : List Move} (hl : s.cfg.legal = true)
    (hs : s.script = .execute a :: rest) : step s = .next (s.withExecutor (s.execStep a) rest) :=
  (step_of_script hl hs).trans (congrArg Host.Outcome.next (s.execStep_withButton_eq s rest a))

/-- The level after a write, as R13 gives it. -/
theorem Level.after_ok (v : Bool) : Level.after v .ok = if v then .high else .low := by cases v <;> rfl

/-- What remains after a primitive that is not the last. -/
theorem State.finishPrim_of_ne_nil (s : State) {ops : List Prim} (hne : ops ≠ []) :
    s.finishPrim ops = { s with cmd := { s.cmd with encOps := ops } } := if_neg hne

/-- Settles O31: a clause for each primitive, its answer, and whether it is the last. -/
theorem executorPerformsOnePrimitive : Obligations.ExecutorPerformsOnePrimitive := by
  intro s rest hl hb
  refine ⟨fun l v ops ho hne hs => ?_, fun l v ho hs => ?_, fun l v ops ho hs => ?_, fun ops a ho hne hs hover => ?_,
    fun a ho hs hover => ?_⟩ <;> rw [step_of_execute hl hs]
  · rw [State.execStep_write_ok hb ho, State.finishPrim_of_ne_nil _ hne, ← Level.after_ok]
    rfl
  · rw [State.execStep_write_ok hb ho, State.finishPrim_nil, ← Level.after_ok]
    rfl
  · rw [State.execStep_write_fail hb ho]
    rfl
  · rw [State.execStep_dwell hb ho hover, State.finishPrim_of_ne_nil _ hne]
    rfl
  · rw [State.execStep_dwell hb ho hover, State.finishPrim_nil]
    rfl

/-- Settles O32: the two reasons for which the executor's step is none. -/
theorem executorWaits : Obligations.ExecutorWaits := by
  intro s a rest hl hs
  rw [step_of_execute hl hs]
  refine ⟨fun hb => ?_, fun ops hb ho hwait => ?_⟩
  · rw [State.execStep_of_idle hb]
    rfl
  · rw [State.execStep_of_waiting hb ho hwait]
    rfl

/-! ### What a row of primitives leaves (R19, R91) -/

/-- The lines a trace leaves, from the levels `L` on (R19). -/
def Lines.afterTrace (L : Lines) (trace : List TraceItem) : Lines :=
  { L with
    fan := levelAfter .fan L.fan trace
    data := levelAfter .data L.data trace
    clk := levelAfter .clk L.clk trace }

@[simp] theorem Lines.afterTrace_level (L : Lines) (trace : List TraceItem) (l : OutLine) :
    (L.afterTrace trace).level l = levelAfter l (L.level l) trace := by cases l <;> rfl

theorem Lines.afterTrace_append (L : Lines) (xs ys : List TraceItem) :
    L.afterTrace (xs ++ ys) = (L.afterTrace xs).afterTrace ys := by
  simp only [Lines.afterTrace, levelAfter_append]

/-- A write in the trace has set its line. -/
theorem Lines.afterTrace_write (L : Lines) (l : OutLine) (v : Bool) (a : Answer) :
    L.afterTrace [.write l v a] = L.setLevel l (Level.after v a) := by cases l <;> rfl

theorem dwellsOf_append (xs ys : List Prim) : dwellsOf (xs ++ ys) = dwellsOf xs + dwellsOf ys := by
  simp only [dwellsOf, List.filter_append, List.length_append]

/-- The state after the primitives `ops`, each write answered `ok` and each dwell given just its `DWELL_NS`, with the
script `rest`. What remains of the command is left as it was. -/
def State.played (s : State) (ops : List Prim) (rest : List Move) : State :=
  { s with
    lines := s.lines.afterTrace (ops.map (Prim.traced s.cfg.dwellNs))
    cmd := { s.cmd with
      trace := s.cmd.trace ++ ops.map (Prim.traced s.cfg.dwellNs)
      dwellFrom := s.now + dwellsOf ops * s.cfg.dwellNs }
    now := s.now + dwellsOf ops * s.cfg.dwellNs
    script := rest }

/-- Rows of primitives played one after the other. -/
theorem State.played_append (s : State) (xs ys : List Prim) (r rest : List Move) :
    (s.played xs r).played ys rest = s.played (xs ++ ys) rest := by
  have htime : s.now + dwellsOf xs * s.cfg.dwellNs + dwellsOf ys * s.cfg.dwellNs =
      s.now + dwellsOf (xs ++ ys) * s.cfg.dwellNs := by
    rw [dwellsOf_append, Nat.add_mul, Nat.add_assoc]
  simp only [State.played, htime, List.map_append, List.append_assoc, Lines.afterTrace_append]

/-- With nothing to play, just after a primitive, the state stays. -/
theorem State.played_nil {s : State} (ht : s.cmd.dwellFrom = s.now) : s.played [] s.script = s := by
  have htime : s.now + dwellsOf [] * s.cfg.dwellNs = s.now := by simp [dwellsOf]
  have hcmd : { s.cmd with dwellFrom := s.now } = s.cmd := by rw [← ht]
  simp only [State.played, htime, List.map_nil, List.append_nil, hcmd]
  rfl

/-- A write is played as a line write (R13). -/
theorem State.played_write (s : State) (l : OutLine) (v : Bool) (rest : List Move) :
    s.played [.w l v] rest = { s.lineWrite l v .ok with script := rest } := by
  have htime : s.now + dwellsOf [.w l v] * s.cfg.dwellNs = s.now := by simp [dwellsOf, Prim.isWrite]
  simp only [State.played, htime, List.map_cons, List.map_nil, Prim.traced, Lines.afterTrace_write]
  rfl

/-- A dwell is played as a dwell done `DWELL_NS` later (R93). -/
theorem State.played_dwell (s : State) (rest : List Move) :
    s.played [.d] rest = { State.dwellDone { s with now := s.now + s.cfg.dwellNs } with script := rest } := by
  have htime : s.now + dwellsOf [.d] * s.cfg.dwellNs = s.now + s.cfg.dwellNs := by simp [dwellsOf, Prim.isWrite]
  simp only [State.played, htime]
  rfl

/-! ### Playing a row of primitives (R89, R153) -/

/-- A run goes on from the state its first steps answer. -/
theorem run_add_of_next {m : Nat} {s t : State} (h : run m s = .next t) (n : Nat) : run (m + n) s = run n t := by
  induction m generalizing s with
  | zero => rw [Nat.zero_add, Host.Outcome.next.inj h]
  | succ m ih =>
    obtain ⟨u, hstep, hrun⟩ := run_succ_eq_next h
    rw [Nat.add_right_comm, run_succ_of_next hstep, ih hrun]

/-- A script that plays a row plays its first primitive and then the others. -/
theorem playMoves_cons (ns t : Time) (p : Prim) (ps : List Prim) :
    playMoves ns t (p :: ps) = playMoves ns t [p] ++ playMoves ns (t + dwellsOf [p] * ns) ps := by
  cases p <;> simp [playMoves, dwellsOf, Prim.isWrite]

/-- The end of a primitive does not look at what was left before. -/
theorem State.finishPrim_played_finishPrim (s : State) (q : Prim) (ops ops' : List Prim) (qs : List Prim)
    (rest : List Move) : (((s.finishPrim (q :: ops)).played qs rest).finishPrim ops') =
      (s.played qs rest).finishPrim ops' := by
  cases ops' <;> rfl

/-- The moves of one primitive perform it. -/
theorem run_playMoves_one {s : State} {p : Prim} {ops : List Prim} {rest : List Move} (hl : s.cfg.legal = true)
    (hb : s.cmd.busy = true) (ho : s.cmd.encOps = p :: ops) (ht : s.cmd.dwellFrom = s.now)
    (hs : s.script = playMoves s.cfg.dwellNs s.now [p] ++ rest) :
    run (playMoves s.cfg.dwellNs s.now [p]).length s = .next ((s.played [p] rest).finishPrim ops) := by
  cases p with
  | w l v =>
    have hstep := step_of_execute hl hs
    rw [State.execStep_write_ok hb ho] at hstep
    rw [State.played_write]
    refine (run_one s).trans (hstep.trans ?_)
    cases ops <;> rfl
  | d =>
    let u : State := { s with now := s.now + s.cfg.dwellNs, script := .execute .ok :: rest }
    have hclock : step s = .next u := (step_of_script hl hs).trans (if_pos (Nat.le_add_right _ _))
    have hstep : step u = _ := step_of_execute hl rfl
    rw [State.execStep_dwell (s := u) hb ho (Nat.add_le_add_right ht.le _)] at hstep
    rw [State.played_dwell]
    refine (run_succ_of_next hclock 1).trans ((run_one u).trans (hstep.trans ?_))
    cases ops <;> rfl

/-- The moves of a row of primitives perform it, and its last primitive completes the command when none is left. -/
theorem run_playMoves {s : State} {done ops : List Prim} {rest : List Move} (hne : done ≠ [])
    (hl : s.cfg.legal = true) (hb : s.cmd.busy = true) (ho : s.cmd.encOps = done ++ ops)
    (ht : s.cmd.dwellFrom = s.now) (hs : s.script = playMoves s.cfg.dwellNs s.now done ++ rest) :
    run (playMoves s.cfg.dwellNs s.now done).length s = .next ((s.played done rest).finishPrim ops) := by
  induction done generalizing s with
  | nil => exact absurd rfl hne
  | cons p ps ih =>
    cases ps with
    | nil => exact run_playMoves_one hl hb ho ht hs
    | cons q qs =>
      rw [playMoves_cons, List.append_assoc] at hs
      have hfirst := run_playMoves_one hl hb ho ht hs
      rw [playMoves_cons, List.length_append, run_add_of_next hfirst]
      have hothers := ih
        (s := (s.played [p] (playMoves s.cfg.dwellNs (s.now + dwellsOf [p] * s.cfg.dwellNs) (q :: qs) ++ rest)).finishPrim
          (q :: (qs ++ ops)))
        (List.cons_ne_nil q qs) hl hb rfl rfl rfl
      rw [State.finishPrim_played_finishPrim, State.played_append] at hothers
      exact hothers

/-- The same for a row that may be empty, with a primitive left after it. -/
theorem run_playMoves_before {s : State} {done ops : List Prim} {q : Prim} {rest : List Move}
    (hl : s.cfg.legal = true) (hb : s.cmd.busy = true) (ho : s.cmd.encOps = done ++ q :: ops)
    (ht : s.cmd.dwellFrom = s.now) (hs : s.script = playMoves s.cfg.dwellNs s.now done ++ rest) :
    run (playMoves s.cfg.dwellNs s.now done).length s = .next ((s.played done rest).finishPrim (q :: ops)) := by
  cases done with
  | nil =>
    obtain rfl : s.script = rest := hs
    have hops : { s.cmd with encOps := q :: ops } = s.cmd := congrArg (fun xs => { s.cmd with encOps := xs }) ho.symm
    rw [State.played_nil ht, State.finishPrim_cons, hops]
    rfl
  | cons p ps => exact run_playMoves (List.cons_ne_nil p ps) hl hb ho ht hs

/-- The moves of a row, and a `fail` to the write after it: the row is performed, and the write ends the command (R90). -/
theorem run_playMoves_fail {s : State} {done ops : List Prim} {l : OutLine} {v : Bool} {rest : List Move}
    (hl : s.cfg.legal = true) (hb : s.cmd.busy = true) (ho : s.cmd.encOps = done ++ .w l v :: ops)
    (ht : s.cmd.dwellFrom = s.now)
    (hs : s.script = playMoves s.cfg.dwellNs s.now done ++ .execute .fail :: rest) :
    run ((playMoves s.cfg.dwellNs s.now done).length + 1) s =
      .next (((s.played done rest).lineWrite l v .fail).raise .lineWriteFailure l.number) := by
  let u : State := (s.played done (.execute .fail :: rest)).finishPrim (.w l v :: ops)
  rw [run_add_of_next (run_playMoves_before hl hb ho ht hs), run_one, step_of_execute (s := u) hl rfl,
    State.execStep_write_fail (s := u) hb rfl]
  rfl

/-! ### Whole frames (R90, R91, R92, R153, R159) -/

/-- The state in which a command has just begun, with the script `rest`. -/
def State.begun (s : State) (i : Instr) (rest : List Move) : State :=
  State.begin { s with script := rest } i (commandOps s.cfg i)

/-- The port of a ready block begins the command a word decodes to (R125). -/
theorem step_issue_of_free {s : State} {cw : CmdWord} {i : Instr} {rest : List Move} (hl : s.cfg.legal = true)
    (hi : s.init = .ready) (hb : s.cmd.busy = false) (hh : s.cmd.held = none) (hs : s.script = .issue cw :: rest)
    (hd : decodeCommand cw = .ok i) : step s = .next (s.begun i rest) := by
  have haccept : State.takeMove { s with script := rest } (.issue cw) = exec i { s with script := rest } := by
    simp [State.takeMove, State.issueWord, State.acceptWord, hb, hh, hi, hd]
  rw [step_of_script hl hs, haccept, exec_command _ (decodeCommand_isCommand hd)]
  exact State.startCommand_of_free (s := { s with script := rest }) hb hi i (commandOps s.cfg i)

/-- A line no primitive of a row writes keeps its level. -/
theorem levelAfter_of_not_written {l : OutLine} {ops : List Prim} (h : ∀ v, .w l v ∉ ops) (ns : Time) (x : Level) :
    levelAfter l x (ops.map (Prim.traced ns)) = x := by
  induction ops with
  | nil => rfl
  | cons p ps ih =>
    have hps := ih fun v hv => h v (List.mem_cons_of_mem _ hv)
    cases p with
    | d => exact hps
    | w k v =>
      have hk : k ≠ l := fun hk => h v (hk ▸ List.mem_cons_self)
      simpa [Prim.traced, levelAfter, hk] using hps

/-- Pulses end with the clock low. -/
theorem levelAfter_clk_pulses (ns : Time) (x : Level) {m : Nat} (hm : 0 < m) :
    levelAfter .clk x ((repeatOps m pulse).map (Prim.traced ns)) = .low := by
  obtain ⟨k, rfl⟩ := Nat.exists_eq_succ_of_ne_zero hm.ne'
  rw [repeatOps_eq, Nat.succ_eq_add_one, List.replicate_succ', List.flatten_append, List.map_append, levelAfter_append]
  rfl

/-- A frame leaves the data line at `END_LEVEL`, the clock low and the fan line as it was (R85, R86). -/
theorem afterTrace_frameOps (L : Lines) {c : Cfg} (hm : 0 < c.endPulses) (f : Field5) (b g r : Byte) (ns : Time) :
    L.afterTrace ((frameOps c f b g r).map (Prim.traced ns)) =
      { L with data := if c.endLevel then .high else .low, clk := .low } := by
  have hfan : levelAfter .fan L.fan ((frameOps c f b g r).map (Prim.traced ns)) = L.fan := by
    refine levelAfter_of_not_written (fun v hv => ?_) ns L.fan
    rcases frameOps_writes hv with h | h <;> cases h
  have hdata : levelAfter .data L.data ((frameOps c f b g r).map (Prim.traced ns)) = Level.ofBit c.endLevel := by
    have hpulses (v : Bool) : Prim.w .data v ∉ repeatOps c.endPulses pulse := fun hv => by
      cases repeatOps_pulse_writes hv
    rw [frameOps_eq, List.map_append, levelAfter_append]
    exact levelAfter_of_not_written hpulses ns (Level.ofBit c.endLevel)
  have hclk : levelAfter .clk L.clk ((frameOps c f b g r).map (Prim.traced ns)) = .low := by
    rw [frameOps_eq, List.map_append, levelAfter_append]
    exact levelAfter_clk_pulses ns _ hm
  rw [Lines.afterTrace, hfan, hdata, hclk]
  cases c.endLevel <;> rfl

/-- Settles O34: the issued word begins the frame, the script's moves play it, and its last primitive completes the
command. -/
theorem setLedPlaysItsWholeFrame : Obligations.SetLedPlaysItsWholeFrame := by
  intro s r g b br rest hl hi hb hh hs
  have hendPulses : 0 < s.cfg.endPulses := by
    obtain ⟨-, ⟨hm, -⟩, -⟩ := (Cfg.legal_iff s.cfg).mp hl
    omega
  have hlines : s.lines.afterTrace ((commandOps s.cfg (.setLed r g b br)).map (Prim.traced s.cfg.dwellNs)) = _ :=
    afterTrace_frameOps s.lines hendPulses (brightnessField s.cfg br) b g r s.cfg.dwellNs
  have hdwells : dwellsOf (commandOps s.cfg (.setLed r g b br)) = _ :=
    dwellsOf_frameOps s.cfg (brightnessField s.cfg br) b g r
  have hissue := step_issue_of_free hl hi hb hh hs (decodeCommand_setLed_iff.mpr rfl)
  have hplay := run_playMoves (ops := []) (rest := rest)
    (s := s.begun (.setLed r g b br) (playMoves s.cfg.dwellNs s.now (commandOps s.cfg (.setLed r g b br)) ++ rest))
    (done := commandOps s.cfg (.setLed r g b br)) (List.cons_ne_nil _ _) hl rfl (List.append_nil _).symm rfl rfl
  rw [Nat.add_comm 1, run_succ_of_next hissue, ← hlines, ← hdwells]
  exact hplay

/-- Settles O35: the moves before the failing one play the primitives before the failed write, which ends the command. -/
theorem failedWriteAbortsTheFrame : Obligations.FailedWriteAbortsTheFrame := by
  intro s r g b br done ops l v rest hl hi hb hh hops hs
  have hissue := step_issue_of_free hl hi hb hh hs (decodeCommand_setLed_iff.mpr rfl)
  have hfail := run_playMoves_fail (rest := rest)
    (s := s.begun (.setLed r g b br) (playMoves s.cfg.dwellNs s.now done ++ .execute .fail :: rest))
    hl rfl hops rfl rfl
  rw [Nat.add_comm 2]
  refine ⟨_, (run_succ_of_next hissue _).trans hfail, rfl, rfl, rfl, rfl, rfl, ?_, fun k hk => ?_, rfl, rfl, rfl, rfl⟩
  · simp [Level.after]
  · simp only [State.raise_lines, State.lineWrite_lines, Lines.setLevel_level, if_neg hk.symm]
    exact Lines.afterTrace_level _ _ k

end Sys2Proof.Machine
end

section
/-!
PROOFS. Family `41_fan_controller.md`: SET_FAN loads its one write (R97), and its result is the answer to it (R98).
-/

namespace Sys2Proof.Machine

/-! ### The last write of a command (R90, R92, R98) -/

/-- The result that the answer to its last write gives a command: OK (R92), or the failure of that line (R90). -/
def Res.ofLastWrite (l : OutLine) : Answer → Res
  | .ok => ⟨.ok, 0⟩
  | .fail => ⟨.lineWriteFailure, l.number⟩

/-- A command with one write left performs it and ends, and only the answer decides the result. -/
theorem State.execStep_last_write {s : State} {l : OutLine} {v : Bool} (hb : s.cmd.busy = true)
    (ho : s.cmd.encOps = [.w l v]) (a : Answer) :
    s.execStep a = (s.lineWrite l v a).result (Res.ofLastWrite l a).code (Res.ofLastWrite l a).line := by
  cases a with
  | ok =>
    rw [State.execStep_write_ok hb ho, State.finishPrim_nil]
    rfl
  | fail =>
    rw [State.execStep_write_fail hb ho]
    rfl

/-! ### SET_FAN (R97, R98) -/

/-- Settles O22: SET_FAN is a host command whose frame is its one write; it begins on a free port or is answered by its
error. -/
theorem setFanLoadsOneWrite : Obligations.SetFanLoadsOneWrite := by
  intro s on hb
  refine ⟨fun hi => ?_, fun hi => ?_⟩
  · rw [exec_of_free hb hi (i := .setFan on) rfl]
    rfl
  · rw [exec_command s (i := .setFan on) rfl, State.startCommand_of_failed hb hi]
    rfl

/-- Issuing SET_FAN to a free port and one step of the executor perform its write, whose answer is the result. -/
theorem run_setFan {s : State} {on : Bool} {a : Answer} {rest : List Move} (hl : s.cfg.legal = true)
    (hi : s.init = .ready) (hb : s.cmd.busy = false) (hh : s.cmd.held = none)
    (hs : s.script = .issue (fanCommandWord on) :: .execute a :: rest) :
    run 2 s = .next (((s.begun (.setFan on) rest).lineWrite .fan on a).result
      (Res.ofLastWrite .fan a).code (Res.ofLastWrite .fan a).line) := by
  have hissue := step_issue_of_free hl hi hb hh hs (decodeCommand_setFan_iff.mpr rfl)
  rw [run_succ_of_next hissue, run_one,
    step_of_execute (s := s.begun (.setFan on) (.execute a :: rest)) hl rfl, State.execStep_last_write rfl rfl]
  rfl

/-- Settles O33: the run's whole final state is known, and its line 18 and its result are read off for each answer. -/
theorem setFanResultIsTheAnswer : Obligations.SetFanResultIsTheAnswer := by
  intro s on a rest hl hi hb hh hs
  refine ⟨_, run_setFan hl hi hb hh hs, rfl, rfl, rfl, rfl, rfl, ?_, ?_⟩
  · rintro rfl
    exact ⟨Level.after_ok on, rfl⟩
  · rintro rfl
    exact ⟨rfl, rfl⟩

end Sys2Proof.Machine
end

section
/-!
PROOFS. Family `42_button_fsm.md`: when R103 lets a trigger act (R103, R113, R122), what each trigger does (R104 to
R112), what a step can do to the codes and the deadline (R113 to R115), the grammar of the codes (R120), and the triggers
that the sources append (R116, R117, R119).
-/

namespace Sys2Proof.Machine

/-! ### The grammar of the codes (R120) -/

/-- The codes of the press in progress in a phase, where each press before it has been released. -/
def Phase.openCodes : Phase → List Event
  | .idle | .ended => []
  | .pressed => [.press]
  | .held => [.press, .hold]

/-- The phase that codes lead to from a phase, if it can emit them in that order. -/
def Phase.afterAll (p : Phase) : List Event → Option Phase
  | [] => some p
  | e :: es => (p.after e).bind (·.afterAll es)

/-- The phase after a history is the one that its codes lead to from Idle. -/
theorem phaseAfter_eq_afterAll (es : List Event) : phaseAfter es = Phase.idle.afterAll es := by
  have key (o : Option Phase) : es.foldl (fun p e => p.bind (·.after e)) o = o.bind (·.afterAll es) := by
    induction es generalizing o with
    | nil => cases o <;> rfl
    | cons e es ih => cases o <;> simp [ih, Phase.afterAll]
  exact key (some .idle)

/-- No code follows an end marker (R113). -/
theorem eq_nil_of_afterAll_ended {es : List Event} {q : Phase} (h : Phase.ended.afterAll es = some q) : es = [] := by
  cases es with
  | nil => rfl
  | cons e es => cases h

/-- Codes that lead on from a live phase complete the press in progress to a sentence of the grammar. -/
theorem inGrammar_openCodes_append {p q : Phase} {es : List Event} (hp : p ≠ .ended)
    (h : p.afterAll es = some q) : inGrammar (p.openCodes ++ es) = true := by
  induction es generalizing p with
  | nil => cases p <;> rfl
  | cons e es ih =>
    obtain ⟨n, hn, h⟩ := Option.bind_eq_some_iff.mp h
    match p, e, hn with
    | .idle, .press, rfl | .pressed, .hold, rfl => exact ih (by decide) h
    | .pressed, .release, rfl | .held, .release, rfl =>
      simpa [Phase.openCodes, inGrammar] using ih (by decide) h
    | .idle, .seqEnd, rfl | .pressed, .seqEnd, rfl | .held, .seqEnd, rfl
    | .idle, .timerFailure, rfl | .pressed, .timerFailure, rfl | .held, .timerFailure, rfl =>
      rw [eq_nil_of_afterAll_ended h]
      rfl

/-- A history that leads to a phase is a sentence of the grammar. -/
theorem inGrammar_of_phaseAfter {es : List Event} {p : Phase} (h : phaseAfter es = some p) : inGrammar es = true :=
  inGrammar_openCodes_append (p := .idle) nofun ((phaseAfter_eq_afterAll es).symm.trans h)

/-- Settles O47: a step keeps the button path's invariant, whose history leads to a phase. -/
theorem emittedCodesMatchTheGrammar : Obligations.EmittedCodesMatchTheGrammar := fun s t hs h =>
  inGrammar_of_phaseAfter (buttonInvariantIsKept s t hs h).history

/-! ### The selection (R103) -/

/-- When the state machine may not step. -/
theorem State.fsmLive_eq_false_iff (s : State) :
    s.fsmLive = false ↔ s.fsm.phase = .ended ∨ s.init = .exportFailed ∨ s.cfg.evDepth = some s.evq.length := by
  have hinit : ¬ s.init = .ready ↔ s.init = .exportFailed := by cases s.init <;> decide
  rw [← Bool.not_eq_true, s.fsmLive_iff, not_and_or, not_and_or, not_not, not_not, hinit]

/-- A deadline is due by a time when it is armed in Pressed and stands no later. -/
theorem State.deadlineBy_iff (s : State) (t : Time) :
    s.deadlineBy t = true ↔ s.fsm.phase = .pressed ∧ ∃ d, s.fsm.deadline = some d ∧ d ≤ t := by
  cases hd : s.fsm.deadline <;> simp [State.deadlineBy, hd]

/-- No deadline is due by a time when every armed one stands after it. -/
theorem State.deadlineBy_eq_false_iff (s : State) (t : Time) :
    s.deadlineBy t = false ↔ ∀ d, s.fsm.phase = .pressed → s.fsm.deadline = some d → t < d := by
  rw [← Bool.not_eq_true, s.deadlineBy_iff]
  exact ⟨fun h d hp hd => Nat.lt_of_not_le fun hle => h ⟨hp, d, hd, hle⟩,
    fun h ⟨hp, d, hd, hle⟩ => absurd (h d hp hd) (Nat.not_lt_of_le hle)⟩

/-- With a trigger waiting, the deadline is measured against its timestamp. -/
theorem State.deadlineReady_of_cons {s : State} {c : TrigCode} {t : Time} {rest : List (TrigCode × Time)}
    (hq : s.inq = (c, t) :: rest) : s.deadlineReady = s.deadlineBy t := by
  simp [State.deadlineReady, hq]

/-- With none waiting, it is measured against the clock. -/
theorem State.deadlineReady_of_nil {s : State} (hq : s.inq = []) : s.deadlineReady = s.deadlineBy s.now := by
  simp [State.deadlineReady, hq]

/-- The two ways in which an armed deadline becomes ready. -/
theorem State.deadlineReady_of_armed {s : State} {d : Time} (hp : s.fsm.phase = .pressed)
    (hd : s.fsm.deadline = some d)
    (h : (∃ c t rest, s.inq = (c, t) :: rest ∧ d ≤ t) ∨ (s.inq = [] ∧ d ≤ s.now)) : s.deadlineReady = true := by
  rcases h with ⟨c, t, rest, hq, hle⟩ | ⟨hq, hle⟩
  · rw [State.deadlineReady_of_cons hq]
    exact (s.deadlineBy_iff t).mpr ⟨hp, d, hd, hle⟩
  · rw [State.deadlineReady_of_nil hq]
    exact (s.deadlineBy_iff s.now).mpr ⟨hp, d, hd, hle⟩

/-- A ready deadline is an armed one. -/
theorem State.deadline_ne_none_of_deadlineReady {s : State} (h : s.deadlineReady = true) : s.fsm.deadline ≠ none := by
  have hby : ∃ t, s.deadlineBy t = true := by
    cases hq : s.inq with
    | nil => exact ⟨s.now, (State.deadlineReady_of_nil hq).symm.trans h⟩
    | cons e rest => exact ⟨e.2, (State.deadlineReady_of_cons hq).symm.trans h⟩
  obtain ⟨t, ht⟩ := hby
  obtain ⟨-, d, hd, -⟩ := (s.deadlineBy_iff t).mp ht
  simp [hd]

/-- A live state machine takes a trigger stamped before every armed deadline. -/
theorem State.takesTrigger_of_live {s : State} {t : Time} (live : s.fsmLive = true)
    (hbefore : ∀ d, s.fsm.phase = .pressed → s.fsm.deadline = some d → t < d) : s.takesTrigger t = true := by
  simp [State.takesTrigger, live, (s.deadlineBy_eq_false_iff t).mpr hbefore]

/-! ### The triggers (R104 to R112) -/

/-- A selected observation makes its transition. -/
theorem exec_obs_of_takes {s : State} {t : Time} (h : s.takesTrigger t = true) (v : Bool) :
    exec (.obs v t) s = .next (s.observe v t) := if_pos h

/-- A selected terminal trigger ends the sequence. -/
theorem exec_terminal_of_takes {s : State} {t : Time} (h : s.takesTrigger t = true) :
    exec (.srcEnd t) s = .next (s.endSequence .seqEnd .sourceEnd) ∧
    exec (.timerFail t) s = .next (s.endSequence .timerFailure .timerFailure) := ⟨if_pos h, if_pos h⟩

/-- A trigger that is not selected changes nothing (log 10). -/
theorem exec_trigger_of_not_takes {s : State} {t : Time} (h : s.takesTrigger t = false) (v : Bool) :
    exec (.obs v t) s = .next s ∧ exec (.srcEnd t) s = .next s ∧ exec (.timerFail t) s = .next s := by
  have hn : ¬ s.takesTrigger t = true := by simp [h]
  exact ⟨if_neg hn, if_neg hn, if_neg hn⟩

/-- A live state machine in phase `p` takes an observation, in Pressed before its deadline only. -/
theorem exec_obs_of_phase {s : State} {t : Time} {p : Phase} (hi : s.init = .ready)
    (hroom : s.cfg.evDepth ≠ some s.evq.length) (hphase : s.fsm.phase = p) (hp : p ≠ .ended)
    (hbefore : ∀ d, p = .pressed → s.fsm.deadline = some d → t < d) (v : Bool) :
    exec (.obs v t) s = .next (s.observe v t) := by
  subst hphase
  exact exec_obs_of_takes (State.takesTrigger_of_live (s.fsmLive_iff.mpr ⟨hp, hi, hroom⟩) hbefore) v

/-- Settles O38: a live state machine takes the observation, and each phase and level has its row. -/
theorem observationTable : Obligations.ObservationTable := by
  intro s t hi hroom
  refine ⟨fun hp => ?_, fun d hp hd hlt => ?_, fun hp => ?_⟩
  · have hexec := exec_obs_of_phase (t := t) hi hroom hp nofun nofun
    rw [hexec, hexec]
    simp [State.observe, hp, State.emit, State.setPhase]
  · have hexec := exec_obs_of_phase hi hroom hp nofun fun d' _ hd' => Option.some.inj (hd.symm.trans hd') ▸ hlt
    rw [hexec, hexec]
    simp [State.observe, hp, State.emit, State.setPhase]
  · have hexec := exec_obs_of_phase (t := t) hi hroom hp nofun nofun
    rw [hexec, hexec]
    simp [State.observe, hp, State.emit, State.setPhase]

/-- Settles O39: a live state machine takes the trigger, whatever its phase. -/
theorem terminalTriggersEndTheSequence : Obligations.TerminalTriggersEndTheSequence := by
  intro s t hi hroom hp hbefore
  exact exec_terminal_of_takes (State.takesTrigger_of_live (s.fsmLive_iff.mpr ⟨hp, hi, hroom⟩) hbefore)

/-- Settles O40: a live state machine takes a ready deadline. -/
theorem deadlineEmitsHold : Obligations.DeadlineEmitsHold := by
  intro s d hi hroom hp hd hdue
  have hlive : s.fsmLive = true := s.fsmLive_iff.mpr ⟨by simp [hp], hi, hroom⟩
  have htakes : s.takesDeadline = true := by
    simp [State.takesDeadline, hlive, State.deadlineReady_of_armed hp hd hdue]
  exact if_pos htakes

/-- Settles O41: without a live state machine, and behind a due deadline, no trigger is selected. -/
theorem unselectedTriggersHaveNoEffect : Obligations.UnselectedTriggersHaveNoEffect := by
  intro s t v
  refine ⟨fun hdead => ?_, fun d hp hd hle => ?_⟩
  · have hlive : s.fsmLive = false := s.fsmLive_eq_false_iff.mpr hdead
    obtain ⟨hobs, hend, hfail⟩ := exec_trigger_of_not_takes (s := s) (t := t) (by simp [State.takesTrigger, hlive]) v
    have hdeadline : ¬ s.takesDeadline = true := by simp [State.takesDeadline, hlive]
    exact ⟨hobs, hend, hfail, if_neg hdeadline⟩
  · have hby : s.deadlineBy t = true := (s.deadlineBy_iff t).mpr ⟨hp, d, hd, hle⟩
    exact exec_trigger_of_not_takes (by simp [State.takesTrigger, hby]) v

/-! ### The state machine's move (R103) -/

/-- A code that decodes to a trigger other than DEADLINE may stand in `inq` (R67): the decoder does not look at
the timestamp. -/
theorem queueable_of_decodeTrigger {c : TrigCode} {t : Time} {i : Instr} (hd : decodeTrigger c t = .ok i)
    (hi : i ≠ .deadline) : queueable c = true := by
  unfold decodeTrigger at hd
  unfold queueable decodeTrigger
  split_ifs at hd <;> simp_all

/-- No step without a live state machine. -/
theorem State.fsmStep_of_not_live {s : State} (h : s.fsmLive = false) : s.fsmStep = .next s := by
  simp [State.fsmStep, h]

/-- A ready deadline goes first. -/
theorem State.fsmStep_of_deadlineReady {s : State} (live : s.fsmLive = true) (h : s.deadlineReady = true) :
    s.fsmStep = exec .deadline s := by
  simp [State.fsmStep, live, h]

/-- Otherwise the head of `inq` is removed and runs. -/
theorem State.fsmStep_of_cons {s : State} {c : TrigCode} {t : Time} {rest : List (TrigCode × Time)} {i : Instr}
    (live : s.fsmLive = true) (hq : s.inq = (c, t) :: rest) (hby : s.deadlineBy t = false)
    (hd : decodeTrigger c t = .ok i) (hi : i ≠ .deadline) : s.fsmStep = exec i { s with inq := rest } := by
  have hready : s.deadlineReady = false := (State.deadlineReady_of_cons hq).trans hby
  simp [State.fsmStep, live, hready, State.processHead, hq, queueable_of_decodeTrigger hd hi, hd]

/-- With neither there is no step. -/
theorem State.fsmStep_of_nil {s : State} (live : s.fsmLive = true) (hq : s.inq = [])
    (hby : s.deadlineBy s.now = false) : s.fsmStep = .next s := by
  have hready : s.deadlineReady = false := (State.deadlineReady_of_nil hq).trans hby
  simp [State.fsmStep, live, hready, State.processHead, hq]

/-- Settles O42: a branch of the selection for each clause. -/
theorem stateMachineStepSelection : Obligations.StateMachineStepSelection := by
  intro s moves hl hs
  have hstep : step s = State.fsmStep { s with script := moves } := step_of_script hl hs
  rw [hstep]
  refine ⟨fun hdead => State.fsmStep_of_not_live (s.fsmLive_eq_false_iff.mpr hdead), fun hp hi hroom => ?_⟩
  have hlive : State.fsmLive { s with script := moves } = true := s.fsmLive_iff.mpr ⟨hp, hi, hroom⟩
  refine ⟨fun d hpressed hd hdue => ?_, fun c t rest i hq hbefore hd hne => ?_, fun hq hbefore => ?_⟩
  · exact State.fsmStep_of_deadlineReady hlive
      (State.deadlineReady_of_armed (s := { s with script := moves }) hpressed hd hdue)
  · exact State.fsmStep_of_cons hlive hq ((s.deadlineBy_eq_false_iff t).mpr hbefore) hd hne
  · exact State.fsmStep_of_nil hlive hq ((s.deadlineBy_eq_false_iff s.now).mpr hbefore)

/-! ### The codes and the deadline in every step (R113 to R115) -/

/-- From `s` to `t` a live state machine emits the one code `e`, and disarms the deadline if it was in Pressed. -/
structure Emits (s : State) (e : Event) (t : State) : Prop where
  /-- R103 -/
  live : s.fsmLive = true
  /-- R114 -/
  emitted : t.emitted = s.emitted ++ [e]
  /-- R53 -/
  queued : t.evq = s.evq ++ [e]
  /-- R115 -/
  disarmed : s.fsm.phase = .pressed → t.fsm.deadline = none
  /-- R104: only a ready deadline gives a Hold. -/
  hold : e = .hold → s.deadlineReady = true

/-- The observation at the head of `inq` emits one code, or is only removed (R105 to R110). -/
theorem emits_observe {s : State} (live : s.fsmLive = true) (rest : List (TrigCode × Time)) (v : Bool) (t : Time) :
    State.observe { s with inq := rest } v t = { s with inq := rest } ∨
    ∃ e, Emits s e (State.observe { s with inq := rest } v t) := by
  rcases State.observe_cases { s with inq := rest } v t with ho | ⟨hp, ho⟩ | ⟨-, ho⟩ | ⟨hp, ho⟩ <;> rw [ho]
  · exact .inl rfl
  · exact .inr ⟨.press, live, rfl, rfl, fun h => (nomatch hp.symm.trans h), nofun⟩
  · exact .inr ⟨.release, live, rfl, rfl, fun _ => rfl, nofun⟩
  · exact .inr ⟨.release, live, rfl, rfl, fun h => (nomatch hp.symm.trans h), nofun⟩

/-- Every effect but a construction leaves the state machine and its history, or is its own move and emits a code. -/
theorem Effect.emits_cases {s t : State} {m : Move} (h : Effect s m t) (hm : m.isConstruct = false) :
    (t.fsm = s.fsm ∧ t.emitted = s.emitted) ∨ (m = .fsm ∧ ∃ e, Emits s e t) := by
  cases h with
  | idle | hold | popEvent | clock | button | append | edge | sample | sampleAppend => exact .inl ⟨rfl, rfl⟩
  | rejectWord _ _ b _ hb => rcases hb with rfl | rfl <;> exact .inl ⟨rfl, rfl⟩
  | beginCommand _ _ b _ hb => rcases hb with rfl | rfl <;> exact .inl ⟨rfl, rfl⟩
  | execute a => exact .inl ⟨s.execStep_fsm a, s.execStep_emitted a⟩
  | holdEvent live ready => exact .inr ⟨rfl, .hold, live, rfl, rfl, fun _ => rfl, fun _ => ready⟩
  | observe live _ v τ rest =>
    rcases emits_observe live rest v τ with ho | hemits
    · rw [ho]; exact .inl ⟨rfl, rfl⟩
    · exact .inr ⟨rfl, hemits⟩
  | terminal live _ c τ rest _ e k hc =>
    have hmarker : e ≠ .hold := by rcases hc with ⟨-, rfl, -⟩ | ⟨-, rfl, -⟩ <;> nofun
    exact .inr ⟨rfl, e, live, rfl, rfl, fun _ => rfl, fun he => absurd he hmarker⟩
  | construct => cases hm

/-- A construction leaves no deadline armed and no code emitted (R36). -/
theorem Effect.cleared_of_construct {s t : State} {m : Move} (h : Effect s m t) (hm : m.isConstruct = true) :
    t.fsm.deadline = none ∧ t.emitted = [] := by
  cases h with
  | construct a _ hc => rw [(State.construct_next hc).2]; exact ⟨rfl, rfl⟩
  | idle _ hm' | rejectWord _ hm' | beginCommand _ hm' => cases hm.symm.trans hm'
  | _ => cases hm

/-- What a step does to the state machine and its history: nothing, one code in its own move, or a construction. -/
theorem step_emits_cases {s t : State} (h : step s = .next t) :
    (t.fsm = s.fsm ∧ t.emitted = s.emitted) ∨ (∃ e moves, s.script = .fsm :: moves ∧ Emits s e t) ∨
    (¬ s.keepsBlock ∧ t.fsm.deadline = none ∧ t.emitted = []) := by
  obtain ⟨-, ⟨-, rfl⟩ | ⟨m, rest, hs, he⟩⟩ := step_effect h
  · exact .inl ⟨rfl, rfl⟩
  · cases hm : m.isConstruct with
    | false =>
      rcases he.emits_cases hm with hsame | ⟨rfl, e, hemits⟩
      · exact .inl hsame
      · exact .inr (.inl ⟨e, rest, hs, { hemits with }⟩)
    | true =>
      have hnew : ¬ s.keepsBlock := fun hk => by cases (hk m rest hs).symm.trans hm
      exact .inr (.inr ⟨hnew, he.cleared_of_construct hm⟩)

/-- Settles O43: a step of one block emits nothing, or is the state machine's move and emits one code. -/
theorem atMostOneCodePerStep : Obligations.AtMostOneCodePerStep := by
  intro s t hk h
  rcases step_emits_cases h with ⟨-, hsame⟩ | ⟨e, moves, hs, hemits⟩ | ⟨hnew, -⟩
  · exact .inl hsame
  · exact .inr ⟨e, moves, hs, hemits.emitted, hemits.queued⟩
  · exact absurd hk hnew

/-- Settles O44: a step that leaves Pressed emits a code or constructs the block, and both leave the deadline disarmed;
a Hold comes from a ready deadline. -/
theorem leavingPressedDisarmsTheDeadline : Obligations.LeavingPressedDisarmsTheDeadline := by
  intro s t h
  rcases step_emits_cases h with ⟨hfsm, hsame⟩ | ⟨e, moves, -, hemits⟩ | ⟨-, hdisarmed, hempty⟩
  · exact ⟨fun hp hleft => absurd (hfsm ▸ hp) hleft, fun hhold => by simp [hsame] at hhold⟩
  · refine ⟨fun hp _ => hemits.disarmed hp, fun hhold => ?_⟩
    have he : e = .hold := by simpa [hemits.emitted] using hhold
    have hready : s.deadlineReady = true := hemits.hold he
    exact ⟨State.pressed_of_deadlineReady hready, State.deadline_ne_none_of_deadlineReady hready⟩
  · exact ⟨fun _ _ => hdisarmed, fun hhold => by simp [hempty] at hhold⟩

/-- When no terminal trigger has been seen, with the codes written out (R119 (c)). -/
theorem State.terminalSeen_eq_false_iff (s : State) :
    s.terminalSeen = false ↔ s.fsm.phase ≠ .ended ∧ ∀ e ∈ s.inq, e.1 ≠ 0x40 ∧ e.1 ≠ 0x80 := by
  have hcode (c : TrigCode) : terminalCode c = false ↔ c ≠ 0x40 ∧ c ≠ 0x80 := by
    simp only [terminalCode, Bool.or_eq_false_iff, decide_eq_false_iff_not]
    rfl
  simp only [State.terminalSeen, Bool.or_eq_false_iff, decide_eq_false_iff_not, List.any_eq_false, ← hcode,
    Bool.not_eq_true, ne_eq]

/-- In Ended nothing is appended and nothing is taken (R113, R119 (c)). -/
theorem Effect.inq_eq_of_ended {s t : State} {m : Move} (h : Effect s m t) (hm : m.isConstruct = false)
    (hp : s.fsm.phase = .ended) : t.inq = s.inq := by
  have hseen : s.terminalSeen ≠ false := fun ht => (s.terminalSeen_eq_false_iff.mp ht).1 hp
  have hlive : s.fsmLive ≠ true := fun hl => (s.fsmLive_iff.mp hl).1 hp
  cases h with
  | idle | hold | popEvent | clock | button | sample | holdEvent => rfl
  | rejectWord _ _ b _ hb => rcases hb with rfl | rfl <;> rfl
  | beginCommand _ _ b _ hb => rcases hb with rfl | rfl <;> rfl
  | execute a => exact s.execStep_inq a
  | observe live => exact absurd live hlive
  | terminal live => exact absurd live hlive
  | append _ _ ht => exact absurd ht hseen
  | edge _ _ ht => exact absurd ht hseen
  | sampleAppend _ ht => exact absurd ht hseen
  | construct => cases hm

/-- Settles O46: in Ended the state machine is not live, so no step emits, and a terminal trigger has been seen, so none
appends. -/
theorem endedIsFinal : Obligations.EndedIsFinal := by
  intro s t hp hk h
  have hinq : t.inq = s.inq := by
    obtain ⟨-, ⟨-, rfl⟩ | ⟨m, rest, hs, he⟩⟩ := step_effect h
    · rfl
    · exact he.inq_eq_of_ended (hk m rest hs) hp
  rcases step_emits_cases h with ⟨hfsm, hsame⟩ | ⟨e, moves, -, hemits⟩ | ⟨hnew, -⟩
  · exact ⟨hfsm, hsame, hinq⟩
  · exact absurd hp (s.fsmLive_iff.mp hemits.live).1
  · exact absurd hk hnew

/-! ### Appends (R29, R67, R119) -/

/-- The codes that may stand in `inq`, written out (R67). -/
theorem queueable_iff (c : TrigCode) :
    queueable c = true ↔ c = 0x00 ∨ c = 0x01 ∨ c = 0x40 ∨ c = 0x80 := by
  constructor
  · intro hq
    rcases decodeTrigger_of_queueable hq 0 with ⟨v, -, -, rfl⟩ | ⟨-, rfl⟩ | ⟨-, rfl⟩
    · cases v
      · exact .inl rfl
      · exact .inr (.inl rfl)
    · exact .inr (.inr (.inl rfl))
    · exact .inr (.inr (.inr rfl))
  · rintro (rfl | rfl | rfl | rfl) <;> rfl

/-- An observation's code is its level (R67). -/
theorem obsCode_eq (v : Bool) : obsCode v = if v then 0x01 else 0x00 := by cases v <;> rfl

/-- When `inq` has a free place (R29). -/
theorem State.inqFull_eq_false_iff (s : State) :
    s.inqFull = false ↔ ∀ n, s.cfg.inDepth = some n → s.inq.length < n := by
  cases hd : s.cfg.inDepth <;> simp [State.inqFull, hd]

/-- An append that keeps the environment's obligations goes to the end of `inq`. -/
theorem State.appendTrigger_of_admitted {s : State} {c : TrigCode} (hq : queueable c = true)
    (hp : s.fsm.phase ≠ .ended) (hcodes : ∀ e ∈ s.inq, e.1 ≠ 0x40 ∧ e.1 ≠ 0x80)
    (hroom : ∀ n, s.cfg.inDepth = some n → s.inq.length < n) :
    s.appendTrigger c s.now = .next (s.enqueue c s.now) := by
  have hseen : s.terminalSeen = false := s.terminalSeen_eq_false_iff.mpr ⟨hp, hcodes⟩
  have hfull : s.inqFull = false := s.inqFull_eq_false_iff.mpr hroom
  simp [State.appendTrigger, hq, hseen, hfull]

/-- An append is admitted or refused; it has no fault. -/
theorem State.appendTrigger_refused_of_not_next {s : State} {c : TrigCode} {t : Time}
    (h : ∀ u, s.appendTrigger c t ≠ .next u) : ∃ r, s.appendTrigger c t = .refused r := by
  cases ha : s.appendTrigger c t with
  | next u => exact absurd ha (h u)
  | fault r => cases r
  | refused r => exact ⟨r, rfl⟩

/-- Settles O48: an append that keeps the obligations is admitted, and one that is admitted has kept them. -/
theorem appendsKeepTheObligations : Obligations.AppendsKeepTheObligations := by
  intro s c t rest hl hs
  have hstep : step s = State.appendTrigger { s with script := rest } c t := step_of_script hl hs
  rw [hstep]
  refine ⟨?_, fun hnot => State.appendTrigger_refused_of_not_next fun u hu => hnot ?_⟩
  · rintro ⟨hc, rfl, hp, hcodes, hroom⟩
    exact State.appendTrigger_of_admitted (s := { s with script := rest }) ((queueable_iff c).mpr hc) hp hcodes hroom
  · obtain ⟨hq, ht, hseen, hfull, -⟩ := State.appendTrigger_next hu
    obtain ⟨hp, hcodes⟩ := (State.terminalSeen_eq_false_iff _).mp hseen
    exact ⟨(queueable_iff c).mp hq, ht, hp, hcodes, (State.inqFull_eq_false_iff _).mp hfull⟩

/-! ### The level sources (R116, R117) -/

/-- A sample waits for its interval (R117). -/
theorem State.sampleDue_of_early {s : State} {ts : Time} (hts : s.src.lastSample = some ts)
    (h : s.now < ts + s.cfg.pollIntervalNs) : s.sampleDue = false := by
  simp [State.sampleDue, hts, h]

/-- The first sample is due, and a later one when its interval is over (R117). -/
theorem State.sampleDue_of_over {s : State}
    (h : ∀ ts, s.src.lastSample = some ts → ts + s.cfg.pollIntervalNs ≤ s.now) : s.sampleDue = true := by
  cases hts : s.src.lastSample with
  | none => simp [State.sampleDue, hts]
  | some ts => simpa [State.sampleDue, hts] using h ts hts

/-- A sample that is not due is not taken. -/
theorem State.pollSample_of_not_due {s : State} (hm : s.cfg.sourceMode = .poll) (hdue : s.sampleDue = false) :
    s.pollSample = .next s := by
  simp [State.pollSample, hm, hdue]

/-- A due sample that shows no change is taken and appends nothing. -/
theorem State.pollSample_of_same {s : State} (hm : s.cfg.sourceMode = .poll) (hi : s.init = .ready)
    (hdue : s.sampleDue = true) (hprev : s.src.prev = none ∨ s.src.prev = some s.src.btnLvl) :
    s.pollSample = .next s.takeSample := by
  simp [State.pollSample, hm, hi, hdue, State.readButton, hprev]

/-- A due sample that shows a change is taken and appends the level. -/
theorem State.pollSample_of_change {s : State} (hm : s.cfg.sourceMode = .poll) (hi : s.init = .ready)
    (hdue : s.sampleDue = true) (hprev : s.src.prev = some (!s.src.btnLvl)) :
    s.pollSample = s.takeSample.appendTrigger (obsCode s.src.btnLvl) s.now := by
  simp [State.pollSample, hm, hi, hdue, State.readButton, hprev]

/-- Settles O49: a clause for a sample that is early, one that shows no change, and one that shows one. -/
theorem polledSamples : Obligations.PolledSamples := by
  intro s rest hl hm hi hs
  have hstep : step s = State.pollSample { s with script := rest } := step_of_script hl hs
  rw [hstep, ← obsCode_eq]
  refine ⟨fun ts hts hearly => ?_, fun hover => ⟨fun hprev => ?_, fun hprev hp hcodes hroom => ?_⟩⟩
  · exact State.pollSample_of_not_due hm (State.sampleDue_of_early (s := { s with script := rest }) hts hearly)
  · exact State.pollSample_of_same hm hi (State.sampleDue_of_over (s := { s with script := rest }) hover) hprev
  · rw [State.pollSample_of_change (s := { s with script := rest }) hm hi (State.sampleDue_of_over hover) hprev]
    exact State.appendTrigger_of_admitted (s := State.takeSample { s with script := rest }) (queueable_obsCode _) hp
      hcodes hroom

/-- A pending edge is delivered with the level read then. -/
theorem State.deliverEdge_of_pending {s : State} (hm : s.cfg.sourceMode = .edge) (hpend : 0 < s.src.pendingEdges) :
    s.deliverEdge = s.takeEdge.appendTrigger (obsCode s.src.btnLvl) s.now := by
  simp [State.deliverEdge, hm, hpend.ne', State.readButton]

/-- An edge-sensing button line counts its level changes. -/
theorem State.moveButton_of_edgeSensing {s : State} (hport : s.lines.buttonPort = some ⟨.input, .both⟩) (v : Bool) :
    s.moveButton v = { s with src := { s.src with
      btnLvl := v, pendingEdges := s.src.pendingEdges + (if v = s.src.btnLvl then 0 else 1) } } := by
  by_cases hv : v = s.src.btnLvl <;> simp [State.moveButton, State.edgeSensing, hport, hv]

/-- Settles O50: what the button's move counts, and the append a delivery makes. -/
theorem edgesAreDelivered : Obligations.EdgesAreDelivered := by
  intro s rest hl hm hport
  refine ⟨fun v hs => ?_, fun hs hpend hp hcodes hroom => ?_⟩
  · have hstep : step s = .next (State.moveButton { s with script := rest } v) := step_of_script hl hs
    rw [hstep, State.moveButton_of_edgeSensing (s := { s with script := rest }) hport]
  · have hstep : step s = State.deliverEdge { s with script := rest } := step_of_script hl hs
    rw [hstep, ← obsCode_eq, State.deliverEdge_of_pending (s := { s with script := rest }) hm hpend]
    exact State.appendTrigger_of_admitted (s := State.takeEdge { s with script := rest }) (queueable_obsCode _) hp
      hcodes hroom

end Sys2Proof.Machine
end

section
/-!
PROOFS. Family `60_exceptions.md`: the host command port. A word is held while a command runs (R142); on a free port it
runs as the instruction it decodes to, or completes at once with its error (R122, R125, R130).
-/

namespace Sys2Proof.Machine

/-! ### The word the port holds (R142) -/

/-- A port that holds nothing takes the word. -/
theorem State.hold_of_none {s : State} (hh : s.cmd.held = none) (cw : CmdWord) :
    s.hold cw = { s with cmd := { s.cmd with held := some cw } } := by
  simp [State.hold, hh]

/-- A port that holds a word leaves a second one (log 9). -/
theorem State.hold_of_ne_none {s : State} (hh : s.cmd.held ≠ none) (cw : CmdWord) : s.hold cw = s := by
  obtain ⟨w, hw⟩ := Option.ne_none_iff_exists'.mp hh
  have hkeep : some (s.cmd.held.getD cw) = s.cmd.held := by rw [hw]; rfl
  rw [State.hold, hkeep]

/-! ### The moves at the port (R125, R142) -/

/-- While a command runs the host has no issue step. -/
theorem State.issueWord_of_busy {s : State} (hb : s.cmd.busy = true) (cw : CmdWord) : s.issueWord cw = .next s := by
  simp [State.issueWord, hb]

/-- On a free port with no word waiting, the issue step is the acceptance of the word. -/
theorem State.issueWord_of_free {s : State} (hb : s.cmd.busy = false) (hh : s.cmd.held = none) (cw : CmdWord) :
    s.issueWord cw = s.acceptWord cw := by
  simp [State.issueWord, hb, hh]

/-- While a command runs a presented word goes to the port. -/
theorem State.presentWord_of_busy {s : State} (hb : s.cmd.busy = true) (cw : CmdWord) :
    s.presentWord cw = .next (s.hold cw) := by
  simp [State.presentWord, hb]

/-- On a free port presenting a word is the issue step. -/
theorem State.presentWord_of_free {s : State} (hb : s.cmd.busy = false) (cw : CmdWord) :
    s.presentWord cw = s.issueWord cw := by
  simp [State.presentWord, hb]

/-- While a command runs the port accepts nothing. -/
theorem State.acceptHeld_of_busy {s : State} (hb : s.cmd.busy = true) : s.acceptHeld = .next s := by
  cases hh : s.cmd.held <;> simp [State.acceptHeld, hh, hb]

/-- Once it is free, the port lets go of its word and accepts it. -/
theorem State.acceptHeld_of_free {s : State} {cw : CmdWord} (hh : s.cmd.held = some cw) (hb : s.cmd.busy = false) :
    s.acceptHeld = s.unhold.acceptWord cw := by
  simp [State.acceptHeld, hh, hb]

/-! ### The acceptance of a word (R122, R125) -/

/-- After a failed construction a word is not decoded (R122, R129). -/
theorem State.acceptWord_of_failed {s : State} (hi : s.init = .exportFailed) (cw : CmdWord) :
    s.acceptWord cw = .next (s.raise .lineExportFailure 0) := by
  simp [State.acceptWord, hi]

/-- A legal word runs as the instruction it decodes to (R125). -/
theorem State.acceptWord_of_legal {s : State} {cw : CmdWord} {i : Instr} (hi : s.init = .ready)
    (hd : decodeCommand cw = .ok i) : s.acceptWord cw = exec i s := by
  simp [State.acceptWord, hi, hd]

/-- An illegal word completes with ILLEGAL_COMMAND (R125). -/
theorem State.acceptWord_of_illegal {s : State} {cw : CmdWord} {e : DecodeError} (hi : s.init = .ready)
    (hd : decodeCommand cw = .error e) : s.acceptWord cw = .next (s.raise .illegalCommand 0) := by
  simp [State.acceptWord, hi, hd]

/-- Where no command runs there is none to end, and an error writes the result record and nothing else (R130). -/
theorem CommandInv.raise_of_free {s : State} (h : CommandInv s) (hb : s.cmd.busy = false) (c : ResCode)
    (l : BitVec 5) :
    s.raise c l = { s with cmd := { s.cmd with res := ⟨c, l⟩, results := s.cmd.results ++ [⟨c, l⟩] } } := by
  have hcur : s.cmd.cur = none := by simpa [hb] using h.running
  have hops : s.cmd.encOps = [] := by simpa [hb] using h.loaded
  simp [State.raise, State.result, hb, hcur, hops]

/-- The invariant does not look at the moves still to come. -/
theorem CommandInv.withScript {s : State} (h : CommandInv s) (rest : List Move) :
    CommandInv { s with script := rest } :=
  h.congr rfl rfl rfl ⟨_, rfl⟩ le_rfl

/-- Settles O29: the illegal word is accepted and answered by its error, in a block where no command runs. -/
theorem illegalWordCompletesAtOnce : Obligations.IllegalWordCompletesAtOnce := by
  intro s cw rest hinv hi hb hh hs hd
  have hstep : step s = State.issueWord { s with script := rest } cw := step_of_script hinv.config hs
  rw [hstep, State.issueWord_of_free (s := { s with script := rest }) hb hh,
    State.acceptWord_of_illegal (s := { s with script := rest }) hi hd, (hinv.withScript rest).raise_of_free hb]

/-! ### After a failed construction (R24, R122) -/

/-- Settles O30: no command runs, so every issued word is answered by its error; the state machine is not live; and only
a construction writes `init`. -/
theorem failedConstructionAnswersEveryWord : Obligations.FailedConstructionAnswersEveryWord := by
  intro s rest hinv hi
  refine ⟨fun cw hh hs => ?_, fun hs => ?_, fun t hk hstep => (step_keeps_init_and_ports hstep hk).1.trans hi⟩
  · have hb : s.cmd.busy = false := (hinv.failed hi).1
    have hstep : step s = State.issueWord { s with script := rest } cw := step_of_script hinv.config hs
    rw [hstep, State.issueWord_of_free (s := { s with script := rest }) hb hh,
      State.acceptWord_of_failed (s := { s with script := rest }) hi, (hinv.withScript rest).raise_of_free hb]
  · have hstep : step s = State.fsmStep { s with script := rest } := step_of_script hinv.config hs
    have hlive : State.fsmLive { s with script := rest } = false :=
      (State.fsmLive_eq_false_iff _).mpr (.inr (.inl hi))
    rw [hstep, State.fsmStep_of_not_live hlive]

/-! ### While a command runs (R142) -/

/-- An instruction has the packet of its expansion (R71). -/
theorem encode_expand (i : Instr) : encode i.expand = encode i := by cases i <;> rfl

/-- What has a command word is a host command, or spells one (R55, R71). -/
theorem expand_isCommand_of_encode {i : Instr} {cw : CmdWord} (h : encode i = .command cw) :
    i.expand.isCommand = true := by
  cases i with
  | setLed | setFan | fanOn | fanOff | ledOff => rfl
  | obs | srcEnd | timerFail | deadline | startFrame | ledFrame | endFrame => cases h

/-- An instruction that has a command word gives that word to the port. -/
theorem exec_of_busy {s : State} {i : Instr} {cw : CmdWord} (hb : s.cmd.busy = true) (he : encode i = .command cw) :
    exec i s = .next (s.hold cw) := by
  have hword : commandWord i.expand = cw := by simp [commandWord, encode_expand, he]
  rw [← exec_expand, exec_command s (expand_isCommand_of_encode he)]
  simp [State.startCommand, hb, hword]

/-- Settles O26: an instruction or a presented word goes to the port, which takes it when it holds none; the issue step
is no step. -/
theorem busyPortHoldsTheWord : Obligations.BusyPortHoldsTheWord := by
  refine ⟨fun s i cw hb he => ?_, fun s cw rest hl hb => ?_⟩
  · rw [exec_of_busy hb he]
    exact ⟨fun hh => by rw [State.hold_of_none hh], fun hh => by rw [State.hold_of_ne_none hh]⟩
  · have hpresent (hs : s.script = .present cw :: rest) : step s = .next (State.hold { s with script := rest } cw) :=
      (step_of_script hl hs).trans (State.presentWord_of_busy (s := { s with script := rest }) hb cw)
    refine ⟨fun hs => ?_, fun hs hh => ?_, fun hs hh => ?_⟩
    · exact (step_of_script hl hs).trans (State.issueWord_of_busy (s := { s with script := rest }) hb cw)
    · rw [hpresent hs, State.hold_of_none (s := { s with script := rest }) hh]
    · rw [hpresent hs, State.hold_of_ne_none (s := { s with script := rest }) hh]

/-! ### Once the port is free (R125, R142) -/

/-- Settles O27: on a free port both moves accept the word, and a ready block runs what it decodes to. -/
theorem stepRunsThePresentedCommand : Obligations.StepRunsThePresentedCommand := by
  intro s cw i rest hl hi hb hh hs hd
  have hissue : step s = State.issueWord { s with script := rest } cw := by
    rcases hs with hs | hs
    · exact step_of_script hl hs
    · exact (step_of_script hl hs).trans (State.presentWord_of_free (s := { s with script := rest }) hb cw)
  rw [hissue, State.issueWord_of_free (s := { s with script := rest }) hb hh,
    State.acceptWord_of_legal (s := { s with script := rest }) hi hd]

/-- Settles O28: the port's move is no step while a command runs, and afterwards is the acceptance of the word it let go
of. -/
theorem heldWordRunsOnceThePortIsFree : Obligations.HeldWordRunsOnceThePortIsFree := by
  intro s cw rest hl hh hs
  have hstep : step s = State.acceptHeld { s with script := rest } := step_of_script hl hs
  have haccept (hb : s.cmd.busy = false) : step s = (State.unhold { s with script := rest }).acceptWord cw :=
    hstep.trans (State.acceptHeld_of_free (s := { s with script := rest }) hh hb)
  refine ⟨fun hb => ?_, fun hb hi => ⟨fun i hd => ?_, fun hd => ?_⟩, fun hb hi => ?_⟩
  · rw [hstep, State.acceptHeld_of_busy (s := { s with script := rest }) hb]
  · rw [haccept hb, State.acceptWord_of_legal (s := State.unhold { s with script := rest }) hi hd]
    rfl
  · rw [haccept hb, State.acceptWord_of_illegal (s := State.unhold { s with script := rest }) hi hd]
    rfl
  · rw [haccept hb, State.acceptWord_of_failed (s := State.unhold { s with script := rest }) hi]
    rfl

end Sys2Proof.Machine
end

section
/-!
PROOFS. Family `70_reset_and_hazards.md`: a construction and its failures (R144 to R146), and no early Hold (R160).
-/

namespace Sys2Proof.Machine

/-! ### Construction (R144 to R146) -/

/-- A construction under a legal configuration is not refused: it answers the state that `State.construct_next`
describes. -/
theorem State.construct_of_legal (s : State) {c : Cfg} (a : ExportAnswers) (hc : c.legal = true) :
    ∃ t, s.construct c a = .next t :=
  ⟨_, if_pos hc⟩

/-- The button line senses both edges in EDGE mode only (R145). -/
theorem buttonEdges_eq (c : Cfg) : buttonEdges c = if c.sourceMode = .edge then .both else .none := by
  unfold buttonEdges
  cases c.sourceMode <;> rfl

/-- Settles O1: the loop of R145 stops at the first `fail`, so the answers that a clause fixes decide what it leaves. -/
theorem constructionExportsTheLinesInOrder : Obligations.ConstructionExportsTheLinesInOrder := by
  intro s c a hc
  obtain ⟨t, h⟩ := s.construct_of_legal a hc
  refine ⟨t, h, ?_⟩
  obtain ⟨-, rfl⟩ := State.construct_next h
  rw [← buttonEdges_eq]
  obtain ⟨fan, data, clk, button⟩ := a
  refine ⟨rfl, rfl, ?allOk, ?fanFails, ?dataFails, ?clkFails, ?buttonFails⟩
  case allOk => rintro ⟨⟩; exact ⟨rfl, rfl⟩
  case fanFails => rintro ⟨⟩; exact ⟨rfl, rfl⟩
  case dataFails => rintro ⟨⟩ ⟨⟩; exact ⟨rfl, rfl⟩
  case clkFails => rintro ⟨⟩ ⟨⟩ ⟨⟩; exact ⟨rfl, rfl⟩
  case buttonFails => rintro ⟨⟩ ⟨⟩ ⟨⟩ ⟨⟩; exact ⟨rfl, rfl⟩

/-- Settles O3: the construction computes to `State.reset`. -/
theorem resetIsAConstruction : Obligations.ResetIsAConstruction :=
  reset_construct

/-! ### No early Hold (R160) -/

/-- No trigger in the queue is stamped ahead of `now` (R119), so a ready deadline is due by `now` whether the timer or
the head of `inq` made it ready (R103). -/
theorem QueueInv.deadlineBy_now {s : State} (h : QueueInv s) (hready : s.deadlineReady = true) :
    s.deadlineBy s.now = true := by
  cases hq : s.inq with
  | nil => exact (State.deadlineReady_of_nil hq).symm.trans hready
  | cons e rest =>
    have hhead : s.deadlineBy e.2 = true := (State.deadlineReady_of_cons hq).symm.trans hready
    obtain ⟨hp, d, hd, hle⟩ := (s.deadlineBy_iff e.2).mp hhead
    have hpast : e.2 ≤ s.now := h.past e (by simp [hq])
    exact (s.deadlineBy_iff s.now).mpr ⟨hp, d, hd, hle.trans hpast⟩

/-- Settles O45: a step that emits a Hold found the deadline ready, so due by `now`. -/
theorem holdIsNeverEarly : Obligations.HoldIsNeverEarly := by
  intro s t hs hk h hhold
  have hready : s.deadlineReady = true := by
    rcases step_emits_cases h with ⟨-, hsame⟩ | ⟨e, moves, -, hemits⟩ | ⟨hnew, -⟩
    · simp [hsame] at hhold
    · exact hemits.hold (by simpa [hemits.emitted] using hhold)
    · exact absurd hk hnew
  obtain ⟨hp, d, hd, hle⟩ := (s.deadlineBy_iff s.now).mp (hs.deadlineBy_now hready)
  exact ⟨d, hp, hd, hle⟩

end Sys2Proof.Machine
end
